-- ==== Sys2Proof/Word.lean ====
section
/-!
DEFINITION. The widths the spec names (00_scope.md R8): a byte is 8 bits, a `u16` is 16 bits, and the
session counters are 32 bits wide (10_state.md R45, R46, R48, R49).
-/
namespace Sys2Proof

/-- A byte, value 0..255 (R8). -/
abbrev Byte := BitVec 8

/-- An unsigned 16-bit value (R8). -/
abbrev U16 := BitVec 16

/-- An unsigned 32-bit value (10_state.md R52, the session registers). -/
abbrev U32 := BitVec 32

end Sys2Proof
end

