-- ==== Sys2Proof/Config.lean ====
section
/-!
DEFINITION. The parameters of the block that are fixed when it is built (00_scope.md R7), the parameters the spec
leaves OPEN, and the model's free values. A constant declared `opaque` has no body: no proof can learn its value.
-/
namespace Sys2Proof.Config

/-- `BLOCK_SIZE`, the firmware block size in bytes (R7, D27). -/
def blockSize : Nat := 128

/-- `PAD_BYTE` (R7). -/
def padByte : Byte := 0xFF

/-- `FW_MAGIC`, the value initialize and commit write (R7). -/
def fwMagic : U16 := 0xF5F5

/-- `TX_MAX`, the size of the transmit buffer (R7, R30, R118). -/
def txMax : Nat := 264

/-- `RX_MAX`, the size of the receive buffer (R7, R31, R208). -/
def rxMax : Nat := 260

/-- The size of `WDATA` in bytes (R28). -/
def wDataMax : Nat := 254

/-- The size of `WBITS` in coils (R29). -/
def wBitsMax : Nat := 2039

/-- The size of `INIT_RESP` in bytes (R50). -/
def initRespMax : Nat := 8

/-- `IMG_MAX`, the largest image size: OPEN, an argument of the model (R7, R66, D24). DEDUCED (log entry 9): it fits the
32 bits of `IMG_SIZE` (R45), so that every image that is accepted has its size in the register. -/
opaque imgMax : U32

/-- `CLK_HZ`, the clock frequency: OPEN; no rule depends on it (R7, R12, D2). -/
opaque clkHz : Nat

/-- The free values of `COMMIT_ELAPSED_MS`: "the value is a draw, any `u32`" (44_firmware_sequencer.md R254, U8). The
`k`-th commit exchange that ends takes `commitElapsedMs k` (log entry 7). -/
opaque commitElapsedMs : Nat → U32

end Sys2Proof.Config
end

