-- ==== Sys2Proof/Syntax.lean ====
section
/-!
DEFINITION. The instructions: one constructor per row of spec/opcode_table.json. The first twenty are the host commands
of 30_encoding.md R113; the last nine are the request forms of the Frame Codec (R95 to R98, 41_frame_encoder.md R151 to
R159). Operand names are the spec's.
-/
namespace Sys2Proof

/-- The optional operand `value2` of `BUILD_REQUEST` (41_frame_encoder.md R150): absent, a byte sequence, or a sequence
of coil states. -/
inductive Value2 where
  | absent
  | data (bytes : List Byte)
  | coils (states : List Bool)
deriving DecidableEq, Repr

inductive Instr where
  /-- `CRC_INIT` (R132). -/
  | crcInit
  /-- `CRC_BYTE b` (R133). -/
  | crcByte (b : Byte)
  /-- `BUILD_REQUEST address, function_code, register, value1, value2?` (R150). -/
  | buildRequest (address functionCode : Byte) (register value1 : U16) (value2 : Value2)
  /-- `PARSE_RESPONSE bytes` (R180). -/
  | parseResponse (bytes : List Byte)
  /-- `DEC_FC` (R181). -/
  | decFc
  /-- `DEC_ERRBC` (R182). -/
  | decErrbc
  /-- `DEC_REGS start_index, count` (R183). -/
  | decRegs (startIndex count : U16)
  /-- `DEC_COILS count` (R184). -/
  | decCoils (count : U16)
  /-- `DEC_CRCOK` (R185). -/
  | decCrcok
  /-- `READ_HOLDING_REGISTERS address, register, count` (R210). -/
  | readHoldingRegisters (address : Byte) (register count : U16)
  /-- `READ_COILS address, register, count` (R211). -/
  | readCoils (address : Byte) (register count : U16)
  /-- `WRITE_SINGLE_REGISTER address, register, value` (R212). -/
  | writeSingleRegister (address : Byte) (register value : U16)
  /-- `WRITE_SINGLE_COIL address, register, state` (R213). -/
  | writeSingleCoil (address : Byte) (register : U16) (state : Bool)
  /-- `WRITE_MULTIPLE_REGISTERS address, register, count, data` (R214). -/
  | writeMultipleRegisters (address : Byte) (register count : U16) (data : List Byte)
  /-- `WRITE_MULTIPLE_COILS address, register, count, coils` (R215). -/
  | writeMultipleCoils (address : Byte) (register count : U16) (coils : List Bool)
  /-- `FW_START image` (R240). -/
  | fwStart (image : List Byte)
  /-- `CFG_WRITE number, value` (R262). -/
  | cfgWrite (number : Byte) (value : U16)
  /-- `REG_READ number` (R260). -/
  | regRead (number : Byte)
  /-- `BUF_READ id, offset` (R261). -/
  | bufRead (id : Byte) (offset : U16)
  /-- `SOFT_RESET` (R263). -/
  | softReset
  /-- Request form Read Coils, function code 0x01 (R151). -/
  | reqReadCoils (address : Byte) (register value1 : U16)
  /-- Request form Read Discrete Inputs, function code 0x02 (R152). -/
  | reqReadDiscreteInputs (address : Byte) (register value1 : U16)
  /-- Request form Read Holding Registers, function code 0x03 (R153). -/
  | reqReadHoldingRegisters (address : Byte) (register value1 : U16)
  /-- Request form Read Input Registers, function code 0x04 (R154). -/
  | reqReadInputRegisters (address : Byte) (register value1 : U16)
  /-- Request form Write Single Coil, function code 0x05 (R155). -/
  | reqWriteSingleCoil (address : Byte) (register value1 : U16)
  /-- Request form Write Single Register, function code 0x06 (R156). -/
  | reqWriteSingleRegister (address : Byte) (register value1 : U16)
  /-- Request form Write Multiple Coils, function code 0x0F (R157). -/
  | reqWriteMultipleCoils (address : Byte) (register value1 : U16) (coils : List Bool)
  /-- Request form Write Multiple Registers, function code 0x10 (R158). -/
  | reqWriteMultipleRegisters (address : Byte) (register value1 : U16) (data : List Byte)
  /-- Request form of the exception class, function codes 0x80..0xFF; `code` is the low seven bits, "copied and not
  interpreted" (R159). -/
  | reqExceptionClass (address : Byte) (code : BitVec 7) (register value1 : U16)
deriving DecidableEq, Repr

/-- What the Host presents to the block: the bytes of a command on the command port (30_encoding.md R110), or the body
(a frame without its last two bytes, 00_scope.md glossary) of a request the Frame Codec is asked to build
(DESIGN CHOICE, log entries 1 and 2). -/
inductive Presented where
  | command (bytes : List Byte)
  | request (body : List Byte)
deriving DecidableEq, Repr

end Sys2Proof
end

