-- ==== Sys2Proof/WellFormed.lean ====
section
/-!
DEFINITION. Which instructions have an encoding. Every host command has one. A request form has one when the fields of its
layout (30_encoding.md R95 to R98) show its operands: a Write Single Coil body shows only the truth of `value1` (R155), a Write
Multiple Coils body as many coils as its count (R107), a Write Multiple Registers body the low byte of its count (R105), an
exception-class body one byte of `value1` (R98). The meanings are defined for the other instructions too.
-/
namespace Sys2Proof

def Instr.wellFormed : Instr → Bool
  | .crcInit => true
  | .crcByte _ => true
  | .buildRequest _ _ _ _ _ => true
  | .parseResponse _ => true
  | .decFc => true
  | .decErrbc => true
  | .decRegs _ _ => true
  | .decCoils _ => true
  | .decCrcok => true
  | .readHoldingRegisters _ _ _ => true
  | .readCoils _ _ _ => true
  | .writeSingleRegister _ _ _ => true
  | .writeSingleCoil _ _ _ => true
  | .writeMultipleRegisters _ _ _ _ => true
  | .writeMultipleCoils _ _ _ _ => true
  | .fwStart _ => true
  | .cfgWrite _ _ => true
  | .regRead _ => true
  | .bufRead _ _ => true
  | .softReset => true
  | .reqReadCoils _ _ _ => true
  | .reqReadDiscreteInputs _ _ _ => true
  | .reqReadHoldingRegisters _ _ _ => true
  | .reqReadInputRegisters _ _ _ => true
  | .reqWriteSingleCoil _ _ v1 => v1.toNat ≤ 1
  | .reqWriteSingleRegister _ _ _ => true
  | .reqWriteMultipleCoils _ _ v1 coils => coils.length == v1.toNat
  | .reqWriteMultipleRegisters _ _ v1 _ => v1.toNat ≤ 255
  | .reqExceptionClass _ _ _ v1 => v1.toNat ≤ 255

end Sys2Proof
end

