-- ==== Sys2Proof/Decode.lean ====
section
/-!
DEFINITION. The encodings. Two spaces (the table's "space"): the command port, where `cmd_op` of 30_encoding.md R113
comes first and the operands follow in the order of R113 (the operands' layout is the model's own, log entry 1: bytes and
16-bit values big-endian, a boolean one byte 0 or 1, a sequence the bytes that are left); and the wire request, whose body is
laid out as R95 to R98 say. Both decoders are total and reject by name; the encoders follow them.
-/
namespace Sys2Proof

/-! ### Byte order (00_scope.md R8, R9) -/

/-- `hi(v)`. -/
def hi (v : U16) : Byte := v.extractLsb' 8 8

/-- `lo(v)`. -/
def lo (v : U16) : Byte := v.extractLsb' 0 8

/-- `{a, b}` on two bytes. -/
def wordOf (a b : Byte) : U16 := a ++ b

def be16 (v : U16) : List Byte := [hi v, lo v]

def le16 (v : U16) : List Byte := [lo v, hi v]

/-- `u16be(s, i)`; a byte beyond the end of `s` counts as 0, and no rule reads one. -/
def u16be (s : List Byte) (i : Nat) : U16 := wordOf (s.getD i 0) (s.getD (i + 1) 0)

/-- `u16le(s, i)`. -/
def u16le (s : List Byte) (i : Nat) : U16 := wordOf (s.getD (i + 1) 0) (s.getD i 0)

/-! ### Coil packing (R64 (c), R107, R108) -/

/-- Up to eight coil states in one byte, state `i` in bit `i`, the bits beyond them 0 (R107). -/
def packByte : List Bool → Byte
  | [] => 0
  | b :: bs => (packByte bs <<< 1) ||| (if b then 1 else 0)

/-- `m` bytes of packed coil states: a new byte every 8 coils, bytes beyond the coils 0x00 (R107, R108). -/
def packCoils : Nat → List Bool → List Byte
  | 0, _ => []
  | m + 1, coils => packByte (coils.take 8) :: packCoils m (coils.drop 8)

/-- The byte-count of Write Multiple Coils, `floor(VALUE1/8) + 1` (R108). -/
def coilBytes (value1 : U16) : Nat := value1.toNat / 8 + 1

/-- Coil `i` of packed bytes: bit `i mod 8` of byte `floor(i/8)` (R64 (c)). -/
def coilAt (packed : List Byte) (i : Nat) : Bool := (packed.getD (i / 8) 0).getLsbD (i % 8)

/-- The first `n` coils of packed bytes. -/
def unpackCoils (n : Nat) (packed : List Byte) : List Bool := (List.range n).map (coilAt packed)

/-- The number of bytes an unsigned integer needs. -/
def bytesNeeded (v : Nat) : Nat := if v = 0 then 0 else v.log2 / 8 + 1

/-- An unsigned integer in `len` bytes, most significant first. -/
def bigEndian (len v : Nat) : List Byte :=
  (List.range len).map fun j => BitVec.ofNat 8 (v >>> (8 * (len - 1 - j)))

/-- The block integer `value2` for `count` registers (R104): big-endian in exactly `2 * count` bytes, leading zeros kept. An
integer that needs more bytes takes as many as it needs, so that its length shows the mismatch (log entry 14). -/
def blockBytes (count value2 : Nat) : List Byte := bigEndian (max (2 * count) (bytesNeeded value2)) value2

/-- `build_request(address, 0x10, register, count, value2)` with an integer `value2` (R104, R114). -/
def buildRequestInteger (address : Byte) (register count : U16) (value2 : Nat) : Instr :=
  .buildRequest address 0x10 register count (.data (blockBytes count.toNat value2))

/-- `write_multiple_registers(address, register, count, data)` with `data` an integer (R104, R114). -/
def writeMultipleRegistersInteger (address : Byte) (register count : U16) (data : Nat) : Instr :=
  .writeMultipleRegisters address register count (blockBytes count.toNat data)

/-! ### Function codes (R93, R101) -/

/-- The frame shapes of R93. -/
inductive FuncClass where
  /-- Simple read/count (R95, R101). -/
  | readCount
  /-- Write Single Coil (R95). -/
  | singleCoil
  /-- Write Single Register (R95). -/
  | singleRegister
  /-- Write Multiple Coils (R97). -/
  | multipleCoils
  /-- Write Multiple Registers (R96). -/
  | multipleRegisters
  /-- Exception class, bit 7 set (R98). -/
  | exceptionClass
deriving DecidableEq, Repr

/-- The shape a function code selects; `none` for the codes that have none (R93, R119). -/
def funcClass (fc : Byte) : Option FuncClass :=
  if fc.getLsbD 7 then some .exceptionClass
  else match fc.toNat with
    | 0x01 => some .readCount
    | 0x02 => some .readCount
    | 0x03 => some .readCount
    | 0x04 => some .readCount
    | 0x05 => some .singleCoil
    | 0x06 => some .singleRegister
    | 0x0F => some .multipleCoils
    | 0x10 => some .multipleRegisters
    | _ => none

/-! ### Request bodies (R91, R95 to R98) -/

/-- The value field of Write Single Coil (R103). -/
def coilWord (value1 : U16) : U16 := if value1 = 0 then 0x0000 else 0xFF00

/-- What follows the 2-byte address field (R95 to R98). -/
def payload (c : FuncClass) (value1 : U16) (data : List Byte) (coils : List Bool) : List Byte :=
  match c with
  | .readCount => be16 value1
  | .singleCoil => be16 (coilWord value1)
  | .singleRegister => be16 value1
  | .multipleCoils => be16 value1 ++ [BitVec.ofNat 8 (coilBytes value1)] ++ packCoils (coilBytes value1) coils
  | .multipleRegisters => [0x00, lo value1, BitVec.ofNat 8 (2 * value1.toNat)] ++ data
  | .exceptionClass => [lo value1]

/-- A request body: the shared head of R91, then the payload. A code without a shape gives the empty body, which no
command builds (R119). -/
def requestBody (address fc : Byte) (register value1 : U16) (data : List Byte) (coils : List Bool) : List Byte :=
  match funcClass fc with
  | some c => [address, fc] ++ be16 register ++ payload c value1 data coils
  | none => []

/-! ### The decoders -/

/-- Why a presentation is no instruction. -/
inductive DecodeError where
  /-- No byte was presented. -/
  | noCode
  /-- A command code that is not in the table of R113: the command is illegal (R116). -/
  | illegalCode (op : Byte)
  /-- The operand bytes are not those of the command (log entry 1). -/
  | badOperands (op : Byte)
  /-- A request body that ends before `value1`: it does not carry the operands of `BUILD_REQUEST` (R113). -/
  | shortBody
  /-- A request body whose function code has no frame shape (R119), with the operands its head carries. -/
  | noShape (address fc : Byte) (register : U16)
  /-- A request body whose bytes are not those R95 to R98 give for its operands, with the operands of `BUILD_REQUEST`
  that it carries (log entry 2). -/
  | otherBody (address fc : Byte) (register value1 : U16) (value2 : Value2)
deriving DecidableEq, Repr

/-- The answer of a decoder. -/
inductive Decoded where
  | instr (i : Instr)
  | rejected (e : DecodeError)
deriving DecidableEq, Repr

/-- The instruction a decoder read, if it read one. -/
def Decoded.toOption : Decoded → Option Instr
  | .instr i => some i
  | .rejected _ => none

def decodeBool (b : Byte) : Option Bool :=
  if b = 0 then some false else if b = 1 then some true else none

def decodeBools : List Byte → Option (List Bool)
  | [] => some []
  | b :: bs => match decodeBool b, decodeBools bs with
    | some x, some xs => some (x :: xs)
    | _, _ => none

/-- The answer for a command whose operands were read, or were not those of the command. -/
def operandsOf (op : Byte) : Option Instr → Decoded
  | some i => .instr i
  | none => .rejected (.badOperands op)

def argsNone (i : Instr) : List Byte → Option Instr
  | [] => some i
  | _ => none

def argsByte (mk : Byte → Instr) : List Byte → Option Instr
  | [b] => some (mk b)
  | _ => none

def argsWord (mk : U16 → Instr) : List Byte → Option Instr
  | [h, l] => some (mk (wordOf h l))
  | _ => none

def argsByteWord (mk : Byte → U16 → Instr) : List Byte → Option Instr
  | [b, h, l] => some (mk b (wordOf h l))
  | _ => none

def argsWordWord (mk : U16 → U16 → Instr) : List Byte → Option Instr
  | [h, l, h', l'] => some (mk (wordOf h l) (wordOf h' l'))
  | _ => none

def argsByteWordWord (mk : Byte → U16 → U16 → Instr) : List Byte → Option Instr
  | [b, h, l, h', l'] => some (mk b (wordOf h l) (wordOf h' l'))
  | _ => none

def argsByteWordBool (mk : Byte → U16 → Bool → Instr) : List Byte → Option Instr
  | [b, h, l, t] => (decodeBool t).map (mk b (wordOf h l))
  | _ => none

def argsBytes (mk : List Byte → Instr) (bs : List Byte) : Option Instr := some (mk bs)

def argsData (mk : Byte → U16 → U16 → List Byte → Instr) : List Byte → Option Instr
  | b :: h :: l :: h' :: l' :: bs => some (mk b (wordOf h l) (wordOf h' l') bs)
  | _ => none

def argsCoils (mk : Byte → U16 → U16 → List Bool → Instr) : List Byte → Option Instr
  | b :: h :: l :: h' :: l' :: bs => (decodeBools bs).map (mk b (wordOf h l) (wordOf h' l'))
  | _ => none

/-- `value2` on the port: a kind byte (0 absent, 1 bytes, 2 coil states), then the sequence (log entry 1). -/
def decodeValue2 : List Byte → Option Value2
  | [] => none
  | k :: bs =>
    if k = 0 then (if bs = [] then some .absent else none)
    else if k = 1 then some (.data bs)
    else if k = 2 then (decodeBools bs).map Value2.coils
    else none

def argsBuild (mk : Byte → Byte → U16 → U16 → Value2 → Instr) : List Byte → Option Instr
  | a :: fc :: h :: l :: h' :: l' :: v2 => (decodeValue2 v2).map (mk a fc (wordOf h l) (wordOf h' l'))
  | _ => none

/-- The command port's decoder: `cmd_op`, then exactly the operands of the row (R110, R113, R116). -/
def decodeCommand : List Byte → Decoded
  | [] => .rejected .noCode
  | op :: args =>
    match op.toNat with
    | 0x01 => operandsOf op (argsNone .crcInit args)
    | 0x02 => operandsOf op (argsByte .crcByte args)
    | 0x08 => operandsOf op (argsBuild .buildRequest args)
    | 0x09 => operandsOf op (argsBytes .parseResponse args)
    | 0x0A => operandsOf op (argsNone .decFc args)
    | 0x0B => operandsOf op (argsNone .decErrbc args)
    | 0x0C => operandsOf op (argsWordWord .decRegs args)
    | 0x0D => operandsOf op (argsWord .decCoils args)
    | 0x0E => operandsOf op (argsNone .decCrcok args)
    | 0x10 => operandsOf op (argsByteWordWord .readHoldingRegisters args)
    | 0x11 => operandsOf op (argsByteWordWord .readCoils args)
    | 0x12 => operandsOf op (argsByteWordWord .writeSingleRegister args)
    | 0x13 => operandsOf op (argsByteWordBool .writeSingleCoil args)
    | 0x14 => operandsOf op (argsData .writeMultipleRegisters args)
    | 0x15 => operandsOf op (argsCoils .writeMultipleCoils args)
    | 0x20 => operandsOf op (argsBytes .fwStart args)
    | 0x30 => operandsOf op (argsByteWord .cfgWrite args)
    | 0x31 => operandsOf op (argsByte .regRead args)
    | 0x32 => operandsOf op (argsByteWord .bufRead args)
    | 0x3F => operandsOf op (argsNone .softReset args)
    | _ => .rejected (.illegalCode op)

/-- The payload of a Write Multiple Coils body (R97, R106 to R108): count, byte-count `floor(count/8) + 1`, and that
many bytes whose bits beyond the count are 0. The byte-count is its low byte, which is all of it for a count the checks
accept (R118). -/
def decodeCoilPayload (mk : U16 → List Bool → Instr) : List Byte → Option Instr
  | h :: l :: m :: packed =>
    let count := wordOf h l
    let coils := unpackCoils count.toNat packed
    if m = BitVec.ofNat 8 (coilBytes count) ∧ packed = packCoils (coilBytes count) coils then some (mk count coils)
    else none
  | _ => none

/-- The payload of a Write Multiple Registers body (R96, R105): 0x00, the count, twice the count, the data. That count and data
agree is a check of the command (R118) and not of the layout. -/
def decodeRegisterPayload (mk : U16 → List Byte → Instr) : List Byte → Option Instr
  | z :: n :: m :: data => if z = 0 ∧ m = BitVec.ofNat 8 (2 * n.toNat) then some (mk (wordOf 0 n) data) else none
  | _ => none

/-- The value field of Write Single Coil (R103): 0xFF00 or 0x0000 and nothing else. -/
def decodeCoilWord (mk : U16 → Instr) : List Byte → Option Instr
  | [h, l] => if wordOf h l = 0xFF00 then some (mk 1) else if wordOf h l = 0 then some (mk 0) else none
  | _ => none

/-- The coil states packed bytes carry for a count: the count's, when they are as many bytes as R108 gives it, else eight in
every byte, so that the length shows the mismatch (R118). -/
def carriedCoils (count : U16) (packed : List Byte) : List Bool :=
  if packed.length = coilBytes count then unpackCoils count.toNat packed else unpackCoils (8 * packed.length) packed

/-- `value2` as the bytes after `value1` carry it: none when there are none; behind the byte-count for the two multiple
writes, which is no operand. -/
def carriedValue2 (c : FuncClass) (value1 : U16) : List Byte → Value2
  | [] => .absent
  | b :: bs => match c with
    | .multipleCoils => .coils (carriedCoils value1 bs)
    | .multipleRegisters => .data bs
    | .readCount => .data (b :: bs)
    | .singleCoil => .data (b :: bs)
    | .singleRegister => .data (b :: bs)
    | .exceptionClass => .data (b :: bs)

/-- `value1` and `value2` as a payload carries them (R95 to R98); none when it ends before `value1`. -/
def carriedOperands (c : FuncClass) (pl : List Byte) : Option (U16 × Value2) :=
  match c, pl with
  | .exceptionClass, v :: rest => some (wordOf 0 v, carriedValue2 .exceptionClass (wordOf 0 v) rest)
  | .exceptionClass, [] => none
  | c, h :: l :: rest => some (wordOf h l, carriedValue2 c (wordOf h l) rest)
  | _, _ => none

/-- The answer for a body that no form encodes to: the operands of `BUILD_REQUEST` it carries. -/
def otherForm (a fc : Byte) (reg : U16) (pl : List Byte) : Decoded :=
  match funcClass fc with
  | none => .rejected (.noShape a fc reg)
  | some c => match carriedOperands c pl with
    | some v => .rejected (.otherBody a fc reg v.1 v.2)
    | none => .rejected .shortBody

/-- The answer for a body whose payload was read, or is not one of its function code. -/
def payloadOf (a fc : Byte) (reg : U16) (pl : List Byte) : Option Instr → Decoded
  | some i => .instr i
  | none => otherForm a fc reg pl

/-- The form a function code and a payload stand for (R93, R95 to R98). -/
def decodeForm (a fc : Byte) (reg : U16) (pl : List Byte) : Decoded :=
  if fc.getLsbD 7 then
    payloadOf a fc reg pl (argsByte (fun v => .reqExceptionClass a (fc.extractLsb' 0 7) reg (wordOf 0 v)) pl)
  else match fc.toNat with
    | 0x01 => payloadOf a fc reg pl (argsWord (.reqReadCoils a reg) pl)
    | 0x02 => payloadOf a fc reg pl (argsWord (.reqReadDiscreteInputs a reg) pl)
    | 0x03 => payloadOf a fc reg pl (argsWord (.reqReadHoldingRegisters a reg) pl)
    | 0x04 => payloadOf a fc reg pl (argsWord (.reqReadInputRegisters a reg) pl)
    | 0x05 => payloadOf a fc reg pl (decodeCoilWord (.reqWriteSingleCoil a reg) pl)
    | 0x06 => payloadOf a fc reg pl (argsWord (.reqWriteSingleRegister a reg) pl)
    | 0x0F => payloadOf a fc reg pl (decodeCoilPayload (.reqWriteMultipleCoils a reg) pl)
    | 0x10 => payloadOf a fc reg pl (decodeRegisterPayload (.reqWriteMultipleRegisters a reg) pl)
    | _ => otherForm a fc reg pl

/-- The wire space's decoder: a request body, as R91 and R95 to R98 lay it out. Whether the address is one a frame may be
sent to is a check of the command (R117). -/
def decodeBody : List Byte → Decoded
  | a :: fc :: h :: l :: pl => decodeForm a fc (wordOf h l) pl
  | _ => .rejected .shortBody

/-- The decoder of what the Host presents. -/
def decode : Presented → Decoded
  | .command bytes => decodeCommand bytes
  | .request body => decodeBody body

/-! ### The encoders -/

def encodeBool (b : Bool) : Byte := if b then 1 else 0

def encodeValue2 : Value2 → List Byte
  | .absent => [0]
  | .data bytes => 1 :: bytes
  | .coils states => 2 :: states.map encodeBool

/-- The function code of the exception class with the given low seven bits (R98, R159). -/
def exceptionCode (code : BitVec 7) : Byte := 1#1 ++ code

/-- The presentation an instruction stands for: the command code of R113 with its operands, or the body of R95 to
R98. -/
def encode : Instr → Presented
  | .crcInit => .command [0x01]
  | .crcByte b => .command [0x02, b]
  | .buildRequest a fc reg v1 v2 => .command ([0x08, a, fc] ++ be16 reg ++ be16 v1 ++ encodeValue2 v2)
  | .parseResponse bytes => .command ([0x09] ++ bytes)
  | .decFc => .command [0x0A]
  | .decErrbc => .command [0x0B]
  | .decRegs start count => .command ([0x0C] ++ be16 start ++ be16 count)
  | .decCoils count => .command ([0x0D] ++ be16 count)
  | .decCrcok => .command [0x0E]
  | .readHoldingRegisters a reg count => .command ([0x10, a] ++ be16 reg ++ be16 count)
  | .readCoils a reg count => .command ([0x11, a] ++ be16 reg ++ be16 count)
  | .writeSingleRegister a reg v => .command ([0x12, a] ++ be16 reg ++ be16 v)
  | .writeSingleCoil a reg st => .command ([0x13, a] ++ be16 reg ++ [encodeBool st])
  | .writeMultipleRegisters a reg count data =>
    .command ([0x14, a] ++ be16 reg ++ be16 count ++ data)
  | .writeMultipleCoils a reg count coils =>
    .command ([0x15, a] ++ be16 reg ++ be16 count ++ coils.map encodeBool)
  | .fwStart image => .command ([0x20] ++ image)
  | .cfgWrite number v => .command ([0x30, number] ++ be16 v)
  | .regRead number => .command [0x31, number]
  | .bufRead id offset => .command ([0x32, id] ++ be16 offset)
  | .softReset => .command [0x3F]
  | .reqReadCoils a reg v1 => .request (requestBody a 0x01 reg v1 [] [])
  | .reqReadDiscreteInputs a reg v1 => .request (requestBody a 0x02 reg v1 [] [])
  | .reqReadHoldingRegisters a reg v1 => .request (requestBody a 0x03 reg v1 [] [])
  | .reqReadInputRegisters a reg v1 => .request (requestBody a 0x04 reg v1 [] [])
  | .reqWriteSingleCoil a reg v1 => .request (requestBody a 0x05 reg v1 [] [])
  | .reqWriteSingleRegister a reg v1 => .request (requestBody a 0x06 reg v1 [] [])
  | .reqWriteMultipleCoils a reg v1 coils => .request (requestBody a 0x0F reg v1 [] coils)
  | .reqWriteMultipleRegisters a reg v1 data => .request (requestBody a 0x10 reg v1 data [])
  | .reqExceptionClass a code reg v1 => .request (requestBody a (exceptionCode code) reg v1 [] [])

/-! ### The opcode table's words -/

/-- The bytes of a table word: bits 7..0 first. -/
def tableBytes (nbits w : Nat) : List Byte :=
  (List.range (nbits / 8)).map fun k => BitVec.ofNat 8 (w >>> (8 * k))

/-- How many operand bytes a command has when all of them are 0; `none` for a code that is not in the table (R113). -/
def zeroOperands (op : Byte) : Option Nat :=
  match op.toNat with
  | 0x01 => some 0
  | 0x02 => some 1
  | 0x08 => some 7
  | 0x09 => some 0
  | 0x0A => some 0
  | 0x0B => some 0
  | 0x0C => some 4
  | 0x0D => some 2
  | 0x0E => some 0
  | 0x10 => some 5
  | 0x11 => some 5
  | 0x12 => some 5
  | 0x13 => some 4
  | 0x14 => some 5
  | 0x15 => some 5
  | 0x20 => some 0
  | 0x30 => some 3
  | 0x31 => some 1
  | 0x32 => some 3
  | 0x3F => some 0
  | _ => none

/-- What the Host presents for a table word (log entry 2): a word whose low byte is a command code is that command, its
operand bytes zero; another word whose low byte is a function code with a shape is that request form, its operands zero; any
other word is the illegal command with that code. -/
def presentTableWord (nbits w : Nat) : Presented :=
  match tableBytes nbits w with
  | [] => .command []
  | op :: more =>
    match zeroOperands op with
    | some n => .command (op :: (more ++ List.replicate (n - more.length) 0))
    | none => match funcClass op with
      | some _ => .request (requestBody 0 op 0 0 [] [])
      | none => .command (op :: more)

/-- The instruction the decoder reads from a word of the opcode table. -/
def decodeTableWord (nbits w : Nat) : Option Instr := (decode (presentTableWord nbits w)).toOption

end Sys2Proof
end

