-- ==== Sys2Proof/Machine/State.lean ====
section
/-!
DEFINITION. The state of the RTU core, all of it, as plain data (10_state.md R20 to R52), what the four agents do next
(00_scope.md R10), the ways a step can stop, and the state after reset (R52, 70_reset_and_hazards.md R321).
-/
namespace Sys2Proof.Machine

/-- `PHASE`, the Arbiter's position in an exchange (R23, 43_rtu_arbiter.md R201). -/
inductive Phase where
  /-- No exchange in progress. -/
  | idle
  /-- The request is being handed to the Transport. -/
  | tx
  /-- The response window is open. -/
  | rxWait
  /-- The inter-frame delay is running. -/
  | gap
deriving DecidableEq, Repr

/-- `FW_STATE`, the Firmware Sequencer's state (R23, 44_firmware_sequencer.md R241). -/
inductive FwState where
  | idle
  | initializing
  | transferring
  | committing
  | done
  | failed
deriving DecidableEq, Repr

/-- The result kinds of `STATUS` (R33, 60_exceptions.md R280). -/
inductive Kind where
  | ok
  | noResponse
  | timeout
  | shortFrame
  | crcMismatch
  | exceptionResponse
  | protocolViolation
deriving DecidableEq, Repr

/-- The result value of a command, `ret` (30_encoding.md R110, R113). -/
inductive Ret where
  /-- The command returns nothing, or ended with a `raise`. -/
  | none
  /-- `REG_READ` or `BUF_READ` out of range: no value (R260, R261). -/
  | refused
  | byte (b : Byte)
  | word (w : U16)
  /-- A register value, zero-extended to 32 bits (R260). -/
  | reg (v : U32)
  | bool (b : Bool)
  | bytes (bs : List Byte)
  | words (ws : List U16)
  /-- `FW_STATE` at the end of a session (R240). -/
  | fwState (f : FwState)
deriving DecidableEq, Repr

/-- The operand registers (R24 to R29). `wData` has 254 bytes and `wBits` 2039 booleans. -/
structure Operands where
  devAddr : Byte
  func : Byte
  regAddr : U16
  value1 : U16
  wData : List Byte
  wLen : BitVec 8
  wBits : List Bool
  wbLen : U16
deriving DecidableEq, Repr

/-- `TXBUF` (264 bytes) with `TXLEN` (R30). -/
structure TxFrame where
  buf : List Byte
  len : U16
deriving DecidableEq, Repr

/-- `RXBUF` (260 bytes) with `RXLEN`, `RXEXP` (R31) and the flags computed over it, `RX_CRC_OK` (R35) and `RX_EXC`
(R36). -/
structure RxFrame where
  buf : List Byte
  len : U16
  exp : U16
  crcOk : Bool
  exc : Bool
deriving DecidableEq, Repr

/-- `STATUS` (R33), `ERRINFO` (R34) and the value the last command returned (R110). -/
structure Result where
  status : Kind
  errInfo : Byte
  ret : Ret
deriving DecidableEq, Repr

/-- The configuration registers (R37 to R44). -/
structure Settings where
  tIfgMs : U16
  tRespMs : U16
  fwTRespMs : U16
  regUpdInit : U16
  regUpdRun : U16
  regBlkUpload : U16
  fwDevAddr : Byte
  fwValidateAcks : Bool
deriving DecidableEq, Repr

/-- The firmware session registers, `FW_STATE`, `BLK_IDX` (R23) and the block buffer (R45 to R50). `blkBuf` has 128
bytes, `initResp` 8. -/
structure Session where
  fwState : FwState
  blkIdx : U32
  imgSize : U32
  blkCnt : U32
  blkBuf : List Byte
  bytesDone : U32
  commitElapsedMs : U32
  initResp : List Byte
  initRespLen : BitVec 4
deriving DecidableEq, Repr

/-- The hidden state of R51 (a), the two countdowns in milliseconds, and what R203 and R205 imply an exchange in progress
remembers: the bytes already handed over, and the bytes collected in the open window (log entry 6). -/
structure Hidden where
  txPos : Nat
  rxAcc : List Byte
  windowLeft : Nat
  gapLeft : Nat
deriving DecidableEq, Repr

/-- The image memory: (address, byte) cells, addresses strictly rising. An address that is not listed holds no byte
(20_memory.md R66, R67; log entry 4). -/
abbrev Memory := List Host.Cell

/-- One move of one of the four agents of R10 (log entry 1). -/
inductive Move where
  /-- The Host presents a command or a request (R110). -/
  | host (p : Presented)
  /-- The Host asserts the reset input (R320, R323). -/
  | resetInput
  /-- The Core goes on with the command in progress. -/
  | core
  /-- The Transport takes the next `k` bytes of the request (R298). -/
  | takes (k : Nat)
  /-- The Transport delivers received bytes (R299). -/
  | gives (bs : List Byte)
  /-- Time advances by `ms` milliseconds (R12, R343). -/
  | elapse (ms : Nat)
deriving DecidableEq, Repr

/-- The model's own fields (log entries 1 and 7): the moves still to come, the bytes the Transport has taken so far, and the
number of free values drawn. No rule reads `wire`. -/
structure Env where
  moves : List Move
  wire : List Byte
  draws : Nat
deriving DecidableEq, Repr

structure State where
  /-- `CRC` (R21). -/
  crc : U16
  /-- `PHASE` (R23). -/
  phase : Phase
  /-- `BUSY` (R32). -/
  busy : Bool
  opnd : Operands
  tx : TxFrame
  rx : RxFrame
  result : Result
  cfg : Settings
  session : Session
  hidden : Hidden
  mem : Memory
  env : Env
deriving DecidableEq, Repr

/-- How a step can fault. -/
inductive Fault where
  /-- `MemRead` beyond the image: undefined by R67 ("defined only for `addr + n <= N`"). Raised by the block fetch of a
  firmware session when the session registers and the image memory disagree, which no run from reset reaches. Safe: the
  model stops where the spec defines nothing. -/
  | imageReadOutOfRange
deriving DecidableEq, Repr

/-- How a step can refuse. -/
inductive Refusal where
  /-- An instruction without a meaning in `exec`; no arm raises it now. Safe: the model stops. -/
  | notModelled (mnemonic : String)
  /-- Raised by `step` for bytes on the command port that are no command at all: no byte, or operand bytes that are not
  those of the command (log entry 1). No Host can present them, since the spec's operands are typed values. Safe. -/
  | malformedCommand
  /-- Raised by `step` for a request body that ends before `value1`: it does not carry the operands `BUILD_REQUEST` takes
  (R113; log entry 2). Safe. -/
  | malformedRequest
deriving DecidableEq, Repr

/-! ### Reset values (R52, R321) -/

def Operands.reset : Operands where
  devAddr := 0
  func := 0
  regAddr := 0
  value1 := 0
  wData := List.replicate Config.wDataMax 0
  wLen := 0
  wBits := List.replicate Config.wBitsMax false
  wbLen := 0

def TxFrame.reset : TxFrame where
  buf := List.replicate Config.txMax 0
  len := 0

def RxFrame.reset : RxFrame where
  buf := List.replicate Config.rxMax 0
  len := 0
  exp := 0
  crcOk := false
  exc := false

def Result.reset : Result where
  status := .ok
  errInfo := 0
  ret := .none

def Settings.reset : Settings where
  tIfgMs := 50
  tRespMs := 1000
  fwTRespMs := 30000
  regUpdInit := 0
  regUpdRun := 0
  regBlkUpload := 0
  fwDevAddr := 1
  fwValidateAcks := true

def Session.reset : Session where
  fwState := .idle
  blkIdx := 0
  imgSize := 0
  blkCnt := 0
  blkBuf := List.replicate Config.blockSize Config.padByte
  bytesDone := 0
  commitElapsedMs := 0
  initResp := List.replicate Config.initRespMax 0
  initRespLen := 0

/-- Both countdowns stopped, no exchange in progress (R322). -/
def Hidden.reset : Hidden where
  txPos := 0
  rxAcc := []
  windowLeft := 0
  gapLeft := 0

/-- Nothing presented, nothing sent, nothing drawn (log entry 1). -/
def Env.reset : Env where
  moves := []
  wire := []
  draws := 0

/-- The machine right after reset: R52 and R321 for every register and buffer, R322 for the countdowns; no image
(log entry 4). -/
def State.reset : State where
  crc := 0xFFFF
  phase := .idle
  busy := false
  opnd := .reset
  tx := .reset
  rx := .reset
  result := .reset
  cfg := .reset
  session := .reset
  hidden := .reset
  mem := []
  env := .reset

end Sys2Proof.Machine
end

