-- ==== Sys2Proof/Machine/Flags.lean ====
section
/-!
DEFINITION. The checksum (40_crc_engine.md) and everything the block computes from received bytes: `crc_ok`
(42_frame_decoder.md R185), the exception bit (R36), the classification of a response (60_exceptions.md R283), and the
Sequencer's two acknowledgement checks (44_firmware_sequencer.md R245).
-/
namespace Sys2Proof.Machine

/-- One of the eight iterations of R133: shift right, and exclusive-or the constant in when a 1 was dropped. -/
def crcShift (c : U16) : U16 := if c.getLsbD 0 then (c >>> 1) ^^^ 0xA001 else c >>> 1

/-- `n` iterations. -/
def crcShifts : Nat → U16 → U16
  | 0, c => c
  | n + 1, c => crcShifts n (crcShift c)

/-- One input byte (R133): into the low byte, then eight iterations. -/
def crcByte (c : U16) (b : Byte) : U16 := crcShifts 8 (c ^^^ b.setWidth 16)

/-- The running value after the bytes of `s`, from `c`. -/
def crcFrom (c : U16) (s : List Byte) : U16 := s.foldl crcByte c

/-- The seed (R131). -/
def crcSeed : U16 := 0xFFFF

/-- The pure function `crc16` (R134). -/
def crc16 (s : List Byte) : U16 := crcFrom crcSeed s

/-- A frame: the body, then its checksum, low byte first (R109, R136). -/
def withCrc (body : List Byte) : List Byte := body ++ le16 (crc16 body)

/-- `crc_ok` (R185): false for fewer than two bytes. -/
def crcOk (r : List Byte) : Bool :=
  if r.length < 2 then false
  else crc16 (r.take (r.length - 2)) == u16le r (r.length - 2)

/-- `RX_EXC` of a byte sequence (R36): two bytes at least, and bit 7 of offset 1. -/
def excBit (r : List Byte) : Bool := decide (2 ≤ r.length) && (r.getD 1 0).getLsbD 7

/-- `Classify(a, n, r)` (R283), in the order the rule writes it. -/
def classify (a : Byte) (n : Nat) (r : List Byte) : Kind × Byte :=
  if a = 0 then (.noResponse, 0)
  else if r.length = 0 then (.timeout, 0)
  else if excBit r then
    if r.length < 5 then (.shortFrame, 0)
    else if !crcOk r then (.crcMismatch, 0)
    else (.exceptionResponse, r.getD 2 0)
  else if r.length < n then (.shortFrame, 0)
  else if !crcOk r then (.crcMismatch, 0)
  else (.ok, 0)

/-- `AckOk(r)` (R245). -/
def ackOk (r : List Byte) : Bool := r.length == 8 && crcOk r

/-- `BlockAckOk(r)` (R245). -/
def blockAckOk (validate : Bool) (r : List Byte) : Bool := r.length == 8 && (!validate || crcOk r)

end Sys2Proof.Machine
end

