-- ==== Sys2Proof/Machine/Operands.lean ====
section
/-!
DEFINITION. The operand forms: buffers and their current contents, operand latching (30_encoding.md R112), the checks a
request must pass (R117 to R119, 43_rtu_arbiter.md R208), the expected response length, and the registers and buffers by
number (10_state.md R52, 45_host_access.md R260 to R262).
-/
namespace Sys2Proof.Machine

/-! ### Buffers -/

/-- `BUF[0 : len(s)] <- s`: the bytes beyond stay. -/
def writeFront {α : Type} (buf s : List α) : List α := s ++ buf.drop s.length

/-- `TXBUF[0:TXLEN]`. -/
def TxFrame.bytes (f : TxFrame) : List Byte := f.buf.take f.len.toNat

/-- `RXBUF[0:RXLEN]`. -/
def RxFrame.bytes (f : RxFrame) : List Byte := f.buf.take f.len.toNat

/-- `INIT_RESP[0:INIT_RESP_LEN]`. -/
def Session.initBytes (f : Session) : List Byte := f.initResp.take f.initRespLen.toNat

/-- A frame into `TXBUF`, its length into `TXLEN` (R150). -/
def TxFrame.store (f : TxFrame) (frame : List Byte) : TxFrame :=
  { buf := writeFront f.buf frame, len := BitVec.ofNat 16 frame.length }

/-- Bytes into `RXBUF`, with `RXLEN`, `RXEXP` and the two flags (R180, R202). -/
def RxFrame.store (f : RxFrame) (r : List Byte) (exp : U16) : RxFrame :=
  { buf := writeFront f.buf r, len := BitVec.ofNat 16 r.length, exp := exp, crcOk := Machine.crcOk r, exc := excBit r }

/-! ### Latching (R112, R113) -/

/-- `DEV_ADDR`, `FUNC`, `REG_ADDR`, `VALUE1`. -/
def Operands.latch (o : Operands) (address fc : Byte) (register value1 : U16) : Operands :=
  { o with devAddr := address, func := fc, regAddr := register, value1 := value1 }

/-- `WDATA`, `WLEN`; an operand of more than 254 bytes does not fit and is not latched (R112). -/
def Operands.latchData (o : Operands) (data : List Byte) : Operands :=
  if data.length ≤ Config.wDataMax then
    { o with wData := writeFront o.wData data, wLen := BitVec.ofNat 8 data.length }
  else o

/-- `WBITS`, `WBLEN`; an operand of more than 2039 elements does not fit and is not latched (R112). -/
def Operands.latchCoils (o : Operands) (coils : List Bool) : Operands :=
  if coils.length ≤ Config.wBitsMax then
    { o with wBits := writeFront o.wBits coils, wbLen := BitVec.ofNat 16 coils.length }
  else o

/-- `value2` of `BUILD_REQUEST` (R150): bytes with function code 0x10, coil states with 0x0F; otherwise it is ignored
and latches nothing (log entry 8). -/
def Operands.latchValue2 (o : Operands) (fc : Byte) : Value2 → Operands
  | .absent => o
  | .data bytes => if fc = 0x10 then o.latchData bytes else o
  | .coils states => if fc = 0x0F then o.latchCoils states else o

/-- The length the data check of R118 uses: the operand's own when one is given, else `WLEN` (R112). -/
def dataLength (o : Operands) : Value2 → Nat
  | .data bytes => bytes.length
  | .absent => o.wLen.toNat
  | .coils _ => o.wLen.toNat

/-- The length the coils check of R118 uses: the operand's own when one is given, else `WBLEN` (R112). -/
def coilsLength (o : Operands) : Value2 → Nat
  | .coils states => states.length
  | .absent => o.wbLen.toNat
  | .data _ => o.wbLen.toNat

/-! ### Checks (R117 to R119, R291) -/

/-- The field-fit and length checks of a frame shape (R118): cause 3, then cause 4. -/
def shapeCheck (c : FuncClass) (value1 : U16) (dataLen coilsLen : Nat) : Option Byte :=
  match c with
  | .readCount => none
  | .singleCoil => none
  | .singleRegister => none
  | .multipleCoils =>
    if value1.toNat > 2039 then some 3 else if coilsLen ≠ value1.toNat then some 4 else none
  | .multipleRegisters =>
    if value1.toNat > 127 then some 3 else if dataLen ≠ 2 * value1.toNat then some 4 else none
  | .exceptionClass => if value1.toNat > 255 then some 3 else none

/-- The checks of a request on its latched operands, in the order of R291: address (2), function code (5), field fit
(3), length (4). -/
def requestCheck (o : Operands) (dataLen coilsLen : Nat) : Option Byte :=
  if o.devAddr.toNat ≥ 248 then some 2
  else match funcClass o.func with
    | none => some 5
    | some c => shapeCheck c o.value1 dataLen coilsLen

/-- The expected response length `n` by function code (R208). -/
def expectedLength (fc : Byte) (value1 : U16) : Nat :=
  if fc = 0x03 then 2 * value1.toNat + 5
  else if fc = 0x01 then value1.toNat + 5
  else 8

/-- The response-size check of the Arbiter (R208): cause 6. -/
def sizeCheck (fc : Byte) (value1 : U16) : Option Byte :=
  if expectedLength fc value1 > Config.rxMax then some 6 else none

/-! ### The frame of the latched operands (R151 to R160) -/

/-- The body of the request the operand registers name. -/
def Operands.body (o : Operands) : List Byte :=
  requestBody o.devAddr o.func o.regAddr o.value1 (o.wData.take (2 * o.value1.toNat)) (o.wBits.take o.value1.toNat)

/-- The frame: body and checksum (R109, R160). -/
def Operands.frame (o : Operands) : List Byte := withCrc o.body

/-! ### Registers by number (R52) -/

def phaseCode : Phase → U32
  | .idle => 0
  | .tx => 1
  | .rxWait => 2
  | .gap => 3

def fwStateCode : FwState → U32
  | .idle => 0
  | .initializing => 1
  | .transferring => 2
  | .committing => 3
  | .done => 4
  | .failed => 5

def kindCode : Kind → U32
  | .ok => 0
  | .noResponse => 1
  | .timeout => 2
  | .shortFrame => 3
  | .crcMismatch => 4
  | .exceptionResponse => 5
  | .protocolViolation => 6

def bitCode (b : Bool) : U32 := if b then 1 else 0

/-- `REG_READ`'s view of the registers (R52, R260): the value zero-extended to 32 bits, or none for a number that is not
in the table. -/
def readRegister (s : State) (number : Byte) : Option U32 :=
  match number.toNat with
  | 0x00 => some (s.crc.setWidth 32)
  | 0x01 => some (phaseCode s.phase)
  | 0x02 => some (fwStateCode s.session.fwState)
  | 0x03 => some s.session.blkIdx
  | 0x08 => some (s.opnd.devAddr.setWidth 32)
  | 0x09 => some (s.opnd.func.setWidth 32)
  | 0x0A => some (s.opnd.regAddr.setWidth 32)
  | 0x0B => some (s.opnd.value1.setWidth 32)
  | 0x0C => some (s.opnd.wLen.setWidth 32)
  | 0x0D => some (s.opnd.wbLen.setWidth 32)
  | 0x10 => some (s.tx.len.setWidth 32)
  | 0x11 => some (s.rx.len.setWidth 32)
  | 0x12 => some (s.rx.exp.setWidth 32)
  | 0x18 => some (bitCode s.busy)
  | 0x19 => some (kindCode s.result.status)
  | 0x1A => some (s.result.errInfo.setWidth 32)
  | 0x1B => some (bitCode s.rx.crcOk)
  | 0x1C => some (bitCode s.rx.exc)
  | 0x20 => some (s.cfg.tIfgMs.setWidth 32)
  | 0x21 => some (s.cfg.tRespMs.setWidth 32)
  | 0x22 => some (s.cfg.fwTRespMs.setWidth 32)
  | 0x23 => some (s.cfg.regUpdInit.setWidth 32)
  | 0x24 => some (s.cfg.regUpdRun.setWidth 32)
  | 0x25 => some (s.cfg.regBlkUpload.setWidth 32)
  | 0x26 => some (s.cfg.fwDevAddr.setWidth 32)
  | 0x27 => some (bitCode s.cfg.fwValidateAcks)
  | 0x30 => some s.session.imgSize
  | 0x31 => some s.session.blkCnt
  | 0x32 => some s.session.bytesDone
  | 0x33 => some s.session.commitElapsedMs
  | 0x34 => some (s.session.initRespLen.setWidth 32)
  | _ => none

/-- `BUF_READ`'s view of the buffers (R261): the element below the buffer's current length, a coil state as 0 or 1. -/
def readBuffer (s : State) (id : Byte) (offset : Nat) : Option Byte :=
  match id.toNat with
  | 0 => (s.opnd.wData.take s.opnd.wLen.toNat)[offset]?
  | 1 => ((s.opnd.wBits.take s.opnd.wbLen.toNat)[offset]?).map encodeBool
  | 2 => s.tx.bytes[offset]?
  | 3 => s.rx.bytes[offset]?
  | 4 => s.session.initBytes[offset]?
  | 5 => (s.session.blkBuf.take Config.blockSize)[offset]?
  | _ => none

/-- `CFG_WRITE`'s legal numbers and values, and the registers after it (R262); none for an illegal write. -/
def writeSetting (c : Settings) (number : Byte) (value : U16) : Option Settings :=
  match number.toNat with
  | 0x20 => if 1 ≤ value.toNat then some { c with tIfgMs := value } else none
  | 0x21 => some { c with tRespMs := value }
  | 0x22 => some { c with fwTRespMs := value }
  | 0x23 => some { c with regUpdInit := value }
  | 0x24 => some { c with regUpdRun := value }
  | 0x25 => some { c with regBlkUpload := value }
  | 0x26 => if value.toNat ≤ 247 then some { c with fwDevAddr := lo value } else none
  | 0x27 => if value.toNat ≤ 1 then some { c with fwValidateAcks := value.getLsbD 0 } else none
  | _ => none

end Sys2Proof.Machine
end

