-- ==== Sys2Proof/Machine/Ops.lean ====
section
/-!
DEFINITION. The named operations: the image memory (20_memory.md R66, R67), accepting and ending a command
(30_encoding.md R110, R111, 60_exceptions.md R290), raising an error kind, reset (70_reset_and_hazards.md R320), and the
exchange's single steps (43_rtu_arbiter.md R202 to R206).
-/
namespace Sys2Proof.Machine

/-- The outcome of a step. -/
abbrev Out := Host.Outcome State Fault Refusal

/-! ### The image memory -/

/-- What an unlisted address reads as: no byte (log entry 4). -/
def Memory.unlisted : Option Byte := none

/-- The canonical form: addresses strictly rising, and no cell equal to what an unlisted address reads as (no cell is,
since an unlisted address holds no byte). -/
def Memory.wf : Memory → Bool
  | [] => true
  | [_] => true
  | a :: b :: m => decide (a.1 < b.1) && Memory.wf (b :: m)

/-- One byte. -/
def Memory.read (m : Memory) (addr : Nat) : Option Byte :=
  match m.find? (fun c => c.1 == addr) with
  | some c => some c.2
  | none => Memory.unlisted

/-- `MemRead(addr, n)` (R67): the `n` bytes from `addr`, or none when one of them does not exist. -/
def Memory.readRange (m : Memory) (addr n : Nat) : Option (List Byte) :=
  let bytes := (m.filter fun c => decide (addr ≤ c.1) && decide (c.1 < addr + n)).map Prod.snd
  if bytes.length = n then some bytes else none

/-- The cells of a byte sequence from an address on. -/
def Memory.cells : Nat → List Byte → Memory
  | _, [] => []
  | addr, b :: bs => (addr, b) :: Memory.cells (addr + 1) bs

/-- The image memory of a session: byte `i` of the image at address `i` (R66). -/
def Memory.load (image : List Byte) : Memory := Memory.cells 0 image

/-! ### Accepting and ending commands -/

/-- A command that needs `BUSY = 0` (R111): while another is in progress the port accepts nothing and nothing changes
(log entry 3). -/
def whenIdle (s : State) (f : State → Out) : Out := if s.busy then .next s else f s

/-- The end of a command (R280, R290): `BUSY <- 0`, `STATUS`, `ERRINFO`, and the returned value. -/
def endCommand (k : Kind) (info : Byte) (r : Ret) (s : State) : State :=
  { s with busy := false, result := { status := k, errInfo := info, ret := r } }

/-- `raise ProtocolViolation(info)` (R287, R290): the block's one way to take an exception. Nothing is saved and nothing
is vectored (R292); there is no return from it (R293). -/
def raise (cause : Byte) (s : State) : State := endCommand .protocolViolation cause .none s

/-- `STATUS <- OK ; ERRINFO <- 0` and the returned value. -/
def endOk (r : Ret) (s : State) : State := endCommand .ok 0 r s

/-- A command that ends with `OK` or with a `raise`, by the outcome of its checks. -/
def endChecked (check : Option Byte) (s : State) (ok : State → State) : State :=
  match check with
  | some cause => raise cause s
  | none => ok s

/-- `REG_READ` and `BUF_READ` return a value and write nothing else (R111, R260, R261). -/
def returnOnly (r : Ret) (s : State) : State := { s with result := { s.result with ret := r } }

/-- An illegal command code (R116). -/
def illegalCommand (s : State) : Out := whenIdle s fun s => .next (raise 1 s)

/-- Reset (R320): every register and buffer takes its reset value. The Transport and the image are not touched (R323),
and the model's own fields go on. -/
def resetBlock (s : State) : State := { State.reset with mem := s.mem, env := s.env }

/-! ### The exchange, step by step -/

/-- The exchange begins (R202): `PHASE <- TX`, `BUSY` is 1, no byte handed over yet. -/
def beginExchange (s : State) : State :=
  { s with busy := true, phase := .tx, hidden := .reset }

/-- The frame of the latched operands into `TXBUF`. -/
def buildFrame (s : State) : State := { s with tx := s.tx.store s.opnd.frame }

/-- Build the request and begin its exchange (R202). -/
def sendRequest (s : State) : State := beginExchange (buildFrame s)

/-- The Sequencer is running a session (R241). -/
def inSession : FwState → Bool
  | .idle => false
  | .initializing => true
  | .transferring => true
  | .committing => true
  | .done => false
  | .failed => false

/-- The response timeout of the exchange: `T_RESP_MS`, or `FW_T_RESP_MS` in a session (R200, R243). -/
def responseTimeout (s : State) : Nat :=
  if inSession s.session.fwState then s.cfg.fwTRespMs.toNat else s.cfg.tRespMs.toNat

/-- The Transport takes up to `k` more bytes of the request, offset 0 first (R203, R298). -/
def transportTakes (k : Nat) (s : State) : State :=
  match s.phase with
  | .tx =>
    let taken := (s.tx.bytes.drop s.hidden.txPos).take k
    { s with
      hidden := { s.hidden with txPos := s.hidden.txPos + taken.length }
      env := { s.env with wire := s.env.wire ++ taken } }
  | .idle => s
  | .rxWait => s
  | .gap => s

/-- The Transport delivers bytes; an open window collects them up to `n` and no more (R205, R299). Bytes that arrive
while no window is open stay with the Transport (R303, R335). -/
def transportGives (bs : List Byte) (s : State) : State :=
  match s.phase with
  | .rxWait =>
    { s with hidden := { s.hidden with
        rxAcc := s.hidden.rxAcc ++ bs.take (s.rx.exp.toNat - s.hidden.rxAcc.length) } }
  | .idle => s
  | .tx => s
  | .gap => s

/-- Time advances: the running countdown goes down (R51 (a), R297). -/
def timeElapses (ms : Nat) (s : State) : State :=
  match s.phase with
  | .rxWait => { s with hidden := { s.hidden with windowLeft := s.hidden.windowLeft - ms } }
  | .gap => { s with hidden := { s.hidden with gapLeft := s.hidden.gapLeft - ms } }
  | .idle => s
  | .tx => s

/-- The window closes, or was never opened, with the bytes `r` (R202): `RXBUF`, `RXLEN`, `RXEXP` and the flags are written
and the inter-frame delay starts (R206). -/
def closeWindow (r : List Byte) (exp : U16) (s : State) : State :=
  { s with
    phase := .gap
    rx := s.rx.store r exp
    hidden := { s.hidden with gapLeft := s.cfg.tIfgMs.toNat } }

/-- The window opens (R202, R205): `PHASE <- RX_WAIT ; RXEXP <- n`, its countdown runs. -/
def openWindow (s : State) : State :=
  { s with
    phase := .rxWait
    rx := { s.rx with exp := BitVec.ofNat 16 (expectedLength s.opnd.func s.opnd.value1) }
    hidden := { s.hidden with rxAcc := [], windowLeft := responseTimeout s } }

/-- The end of the transmit step (R202, R204): a broadcast opens no window and its result is empty. -/
def afterTransmit (s : State) : State :=
  if s.opnd.devAddr = 0 then closeWindow [] 0 s else openWindow s

/-- The end of the exchange (R202): `PHASE <- IDLE`, and the classification of what came (R283). -/
def endExchange (s : State) : State :=
  let c := classify s.opnd.devAddr s.rx.exp.toNat s.rx.bytes
  { s with phase := .idle, result := { s.result with status := c.1, errInfo := c.2 } }

/-- The end of a command whose last exchange has been classified (R290): `BUSY <- 0` and the returned value. -/
def finish (r : Ret) (s : State) : State := { s with busy := false, result := { s.result with ret := r } }

end Sys2Proof.Machine
end

