-- ==== Sys2Proof/Machine/Arbiter.lean ====
section
/-!
DEFINITION. The six Arbiter commands (43_rtu_arbiter.md R210 to R216). A command latches its operands, sets `FUNC`, makes
its checks, builds its frame and begins the exchange, which the moves of the Core, the Transport and Time then carry to
its end (Machine/Sequencer.lean). A refused command sends nothing and ends at once (R216).
-/
namespace Sys2Proof.Machine

/-- What the six commands share: the checks in the order of R291, then the request. `data` and `coils` are the operands'
own lengths (R112). -/
def arbiterOp (o : Operands) (dataLen coilsLen : Nat) (s : State) : State :=
  endChecked ((requestCheck o dataLen coilsLen).or (sizeCheck o.func o.value1)) { s with opnd := o } sendRequest

/-- `READ_HOLDING_REGISTERS address, register, count` (R210). -/
def execReadHoldingRegisters (address : Byte) (register count : U16) (s : State) : Out :=
  whenIdle s fun s => .next (arbiterOp (s.opnd.latch address 0x03 register count) 0 0 s)

/-- `READ_COILS address, register, count` (R211). -/
def execReadCoils (address : Byte) (register count : U16) (s : State) : Out :=
  whenIdle s fun s => .next (arbiterOp (s.opnd.latch address 0x01 register count) 0 0 s)

/-- `WRITE_SINGLE_REGISTER address, register, value` (R212). -/
def execWriteSingleRegister (address : Byte) (register value : U16) (s : State) : Out :=
  whenIdle s fun s => .next (arbiterOp (s.opnd.latch address 0x06 register value) 0 0 s)

/-- `WRITE_SINGLE_COIL address, register, state` (R213): `VALUE1 <- 1` if `state` else `0`. -/
def execWriteSingleCoil (address : Byte) (register : U16) (state : Bool) (s : State) : Out :=
  whenIdle s fun s => .next (arbiterOp (s.opnd.latch address 0x05 register (if state then 1 else 0)) 0 0 s)

/-- `WRITE_MULTIPLE_REGISTERS address, register, count, data` (R214). -/
def execWriteMultipleRegisters (address : Byte) (register count : U16) (data : List Byte) (s : State) : Out :=
  whenIdle s fun s => .next <|
    arbiterOp ((s.opnd.latch address 0x10 register count).latchData data) data.length 0 s

/-- `WRITE_MULTIPLE_COILS address, register, count, coils` (R215). -/
def execWriteMultipleCoils (address : Byte) (register count : U16) (coils : List Bool) (s : State) : Out :=
  whenIdle s fun s => .next <|
    arbiterOp ((s.opnd.latch address 0x0F register count).latchCoils coils) 0 coils.length s

end Sys2Proof.Machine
end

