-- ==== Sys2Proof/Machine/Crc.lean ====
section
/-!
DEFINITION. The CRC Engine's commands (40_crc_engine.md R132, R133).
-/
namespace Sys2Proof.Machine

/-- `CRC_INIT` (R132). -/
def execCrcInit (s : State) : Out :=
  whenIdle s fun s => .next (endOk .none { s with crc := crcSeed })

/-- `CRC_BYTE b` (R133): `ret` is the new `CRC`. -/
def execCrcByte (b : Byte) (s : State) : Out :=
  whenIdle s fun s => .next (endOk (.word (crcByte s.crc b)) { s with crc := crcByte s.crc b })

end Sys2Proof.Machine
end

