-- ==== Sys2Proof/Machine/Decoder.lean ====
section
/-!
DEFINITION. The Frame Codec's decoder commands (42_frame_decoder.md R180 to R186). `r` of the rules is `s.rx.bytes`.
-/
namespace Sys2Proof.Machine

/-- `PARSE_RESPONSE bytes` (R180): more than `RX_MAX` bytes are refused with cause 11 and `RXBUF` stays. -/
def execParseResponse (bytes : List Byte) (s : State) : Out :=
  whenIdle s fun s => .next <|
    endChecked (if bytes.length > Config.rxMax then some 11 else none) s fun s =>
      endOk (.word (s.rx.store bytes 0).len) { s with rx := s.rx.store bytes 0 }

/-- An accessor (R186): it reads `RXBUF` and writes only `STATUS`, `ERRINFO` and `ret`; cause 7 when it reaches outside
the received payload. -/
def accessor (inside : Prop) [Decidable inside] (r : Ret) (s : State) : State :=
  endChecked (if inside then none else some 7) s (endOk r)

/-- `DEC_FC` (R181). -/
def execDecFc (s : State) : Out :=
  whenIdle s fun s => .next (accessor (2 ≤ s.rx.len.toNat) (.byte (s.rx.bytes.getD 1 0)) s)

/-- `DEC_ERRBC` (R182). -/
def execDecErrbc (s : State) : Out :=
  whenIdle s fun s => .next (accessor (3 ≤ s.rx.len.toNat) (.byte (s.rx.bytes.getD 2 0)) s)

/-- `count` big-endian words from offset `o` (R183). -/
def wordsAt (r : List Byte) (o count : Nat) : List U16 := (List.range count).map fun k => u16be r (o + 2 * k)

/-- `DEC_REGS start_index, count` (R183); the arithmetic is on unbounded integers. -/
def execDecRegs (start count : U16) (s : State) : Out :=
  whenIdle s fun s => .next <|
    accessor (2 ≤ s.rx.len.toNat ∧ 3 + 2 * start.toNat + 2 * count.toNat + 2 ≤ s.rx.len.toNat)
      (.words (wordsAt s.rx.bytes (3 + 2 * start.toNat) count.toNat)) s

/-- `DEC_COILS count` (R184): `count` raw bytes. -/
def execDecCoils (count : U16) (s : State) : Out :=
  whenIdle s fun s => .next <|
    accessor (2 ≤ s.rx.len.toNat ∧ 3 + count.toNat + 2 ≤ s.rx.len.toNat)
      (.bytes ((s.rx.bytes.drop 3).take count.toNat)) s

/-- `DEC_CRCOK` (R185). -/
def execDecCrcok (s : State) : Out :=
  whenIdle s fun s => .next (endOk (.bool (crcOk s.rx.bytes)) s)

end Sys2Proof.Machine
end

