-- ==== Sys2Proof/Machine/Encoder.lean ====
section
/-!
DEFINITION. The Frame Codec's encoder: `BUILD_REQUEST` and its nine forms (41_frame_encoder.md R150 to R160). A form is
`BUILD_REQUEST` with that form's function code (log entry 2).
-/
namespace Sys2Proof.Machine

/-- R150: latch the operands (R112), check them in the order of R291, and build the frame into `TXBUF`; `ret` is
`TXLEN`, nothing is sent. On a `raise`, `TXBUF` and `TXLEN` keep their values. -/
def buildRequestOp (address fc : Byte) (register value1 : U16) (v2 : Value2) (s : State) : State :=
  let o := (s.opnd.latch address fc register value1).latchValue2 fc v2
  endChecked (requestCheck o (dataLength o v2) (coilsLength o v2)) { s with opnd := o } fun s =>
    endOk (.word (buildFrame s).tx.len) (buildFrame s)

/-- `BUILD_REQUEST` (R150). -/
def execBuildRequest (address fc : Byte) (register value1 : U16) (v2 : Value2) (s : State) : Out :=
  whenIdle s fun s => .next (buildRequestOp address fc register value1 v2 s)

/-- Read Coils (R151). -/
def execReqReadCoils (address : Byte) (register value1 : U16) (s : State) : Out :=
  whenIdle s fun s => .next (buildRequestOp address 0x01 register value1 .absent s)

/-- Read Discrete Inputs (R152). -/
def execReqReadDiscreteInputs (address : Byte) (register value1 : U16) (s : State) : Out :=
  whenIdle s fun s => .next (buildRequestOp address 0x02 register value1 .absent s)

/-- Read Holding Registers (R153). -/
def execReqReadHoldingRegisters (address : Byte) (register value1 : U16) (s : State) : Out :=
  whenIdle s fun s => .next (buildRequestOp address 0x03 register value1 .absent s)

/-- Read Input Registers (R154). -/
def execReqReadInputRegisters (address : Byte) (register value1 : U16) (s : State) : Out :=
  whenIdle s fun s => .next (buildRequestOp address 0x04 register value1 .absent s)

/-- Write Single Coil (R155). -/
def execReqWriteSingleCoil (address : Byte) (register value1 : U16) (s : State) : Out :=
  whenIdle s fun s => .next (buildRequestOp address 0x05 register value1 .absent s)

/-- Write Single Register (R156). -/
def execReqWriteSingleRegister (address : Byte) (register value1 : U16) (s : State) : Out :=
  whenIdle s fun s => .next (buildRequestOp address 0x06 register value1 .absent s)

/-- Write Multiple Coils (R157). -/
def execReqWriteMultipleCoils (address : Byte) (register value1 : U16) (coils : List Bool) (s : State) : Out :=
  whenIdle s fun s => .next (buildRequestOp address 0x0F register value1 (.coils coils) s)

/-- Write Multiple Registers (R158). -/
def execReqWriteMultipleRegisters (address : Byte) (register value1 : U16) (data : List Byte) (s : State) : Out :=
  whenIdle s fun s => .next (buildRequestOp address 0x10 register value1 (.data data) s)

/-- Exception class (R159). -/
def execReqExceptionClass (address : Byte) (code : BitVec 7) (register value1 : U16) (s : State) : Out :=
  whenIdle s fun s => .next (buildRequestOp address (exceptionCode code) register value1 .absent s)

end Sys2Proof.Machine
end

