-- ==== Sys2Proof/Machine/Firmware.lean ====
section
/-!
DEFINITION. The Firmware Sequencer (44_firmware_sequencer.md): `FW_START` (R240), its phases Initialize (R244), Transfer
(R247, R248) and Commit (R254), and what a session does with the response of each exchange.
-/
namespace Sys2Proof.Machine

/-- `ceil(n / BLOCK_SIZE)` (R246). -/
def blockCount (n : Nat) : Nat := (n + (Config.blockSize - 1)) / Config.blockSize

/-- The number of image bytes in block `k` of an image of `n` bytes, `l` of R248. -/
def blockBytesIn (n k : Nat) : Nat := min Config.blockSize (n - k * Config.blockSize)

/-- A block padded to `BLOCK_SIZE` with `PAD_BYTE` (R248). -/
def padBlock (bytes : List Byte) : List Byte :=
  bytes ++ List.replicate (Config.blockSize - bytes.length) Config.padByte

/-- An exchange that writes `FW_MAGIC` to a register of the device: Initialize and Commit (R243, R244, R254). -/
def sendMagic (register : U16) (s : State) : State :=
  sendRequest { s with opnd := s.opnd.latch s.cfg.fwDevAddr 0x06 register Config.fwMagic }

/-- The session registers at the start of a session (R240). -/
def startSession (image : List Byte) (s : State) : State :=
  { s with
    mem := Memory.load image
    session := { s.session with
      fwState := .initializing
      imgSize := BitVec.ofNat 32 image.length
      blkCnt := BitVec.ofNat 32 (blockCount image.length)
      blkIdx := 0
      bytesDone := 0
      commitElapsedMs := 0
      initRespLen := 0 } }

/-- The checks of `FW_START` in the order of R240 and R291: state (9), address (2), image size (10). -/
def fwCheck (image : List Byte) (s : State) : Option Byte :=
  if s.session.fwState ≠ .idle then some 9
  else if s.cfg.fwDevAddr.toNat ≥ 248 then some 2
  else if Config.imgMax.toNat < image.length then some 10
  else none

/-- `FW_START image` (R240): the session starts with the exchange of Initialize (R244). -/
def execFwStart (image : List Byte) (s : State) : Out :=
  whenIdle s fun s => .next <|
    endChecked (fwCheck image s) s fun s => sendMagic s.cfg.regUpdInit (startSession image s)

/-- `FetchBlock(BLK_IDX)` (R248): the whole of `BLKBUF` is rewritten. None where `MemRead` is undefined (R67). -/
def fetchBlock (s : State) : Option State :=
  let k := s.session.blkIdx.toNat
  (Memory.readRange s.mem (k * Config.blockSize) (blockBytesIn s.session.imgSize.toNat k)).map fun bytes =>
    { s with session := { s.session with blkBuf := padBlock bytes } }

/-- The exchange of a block (R247): 64 registers, the bytes of `BLKBUF`, to `REG_BLK_UPLOAD`. -/
def sendBlock (s : State) : State :=
  sendRequest { s with
    opnd := (s.opnd.latch s.cfg.fwDevAddr 0x10 s.cfg.regBlkUpload (BitVec.ofNat 16 (Config.blockSize / 2))).latchData
      s.session.blkBuf }

/-- The end of a session: `FW_STATE` is `Done` or `Failed`, and it is what the command returns (R240). -/
def endSession (f : FwState) (s : State) : State :=
  finish (.fwState f) { s with session := { s.session with fwState := f } }

/-- After the exchange of Initialize (R244): the raw response is recorded; the session fails or goes on. -/
def afterInitialize (s : State) : State :=
  let r := s.rx.bytes
  let s1 : State := { s with session := { s.session with
    initResp := writeFront s.session.initResp r, initRespLen := BitVec.ofNat 4 r.length } }
  if s.cfg.fwValidateAcks && !ackOk r then endSession .failed s1
  else { s1 with session := { s1.session with fwState := .transferring } }

/-- After the exchange of a block (R247): abort (R250), or count the block's image bytes (R251) and advance (R249). -/
def afterBlock (s : State) : State :=
  if blockAckOk s.cfg.fwValidateAcks s.rx.bytes then
    { s with session := { s.session with
        bytesDone := s.session.bytesDone +
          BitVec.ofNat 32 (blockBytesIn s.session.imgSize.toNat s.session.blkIdx.toNat)
        blkIdx := s.session.blkIdx + 1 } }
  else endSession .failed s

/-- After the exchange of Commit (R254): `COMMIT_ELAPSED_MS` is a free value (log entry 7). -/
def afterCommit (s : State) : State :=
  let s1 : State := { s with
    session := { s.session with commitElapsedMs := Config.commitElapsedMs s.env.draws }
    env := { s.env with draws := s.env.draws + 1 } }
  if s.cfg.fwValidateAcks && !ackOk s.rx.bytes then endSession .failed s1 else endSession .done s1

/-- What follows a classified exchange: the phase of the session goes on, or the Arbiter command returns the raw
response bytes (R207). -/
def afterExchange (s : State) : State :=
  match s.session.fwState with
  | .initializing => afterInitialize s
  | .transferring => afterBlock s
  | .committing => afterCommit s
  | .idle => finish (.bytes s.rx.bytes) s
  | .done => finish (.bytes s.rx.bytes) s
  | .failed => finish (.bytes s.rx.bytes) s

/-- The Core between two exchanges of a session (R240, R247): the next block, the change to Commit after the last one, or
the exchange of Commit. -/
def continueSession (s : State) : Out :=
  match s.session.fwState with
  | .transferring =>
    if s.session.blkIdx.toNat < s.session.blkCnt.toNat then
      match fetchBlock s with
      | some s1 => .next (sendBlock s1)
      | none => .fault .imageReadOutOfRange
    else .next { s with session := { s.session with fwState := .committing } }
  | .committing => .next (sendMagic s.cfg.regUpdRun s)
  | .initializing => .next s
  | .idle => .next s
  | .done => .next s
  | .failed => .next s

end Sys2Proof.Machine
end

