-- ==== Sys2Proof/Machine/HostAccess.lean ====
section
/-!
DEFINITION. The host access commands (45_host_access.md R260 to R263).
-/
namespace Sys2Proof.Machine

/-- `REG_READ number` (R260): accepted at any time; a number that is not in the table returns no value. -/
def execRegRead (number : Byte) (s : State) : Out :=
  .next (returnOnly (match readRegister s number with | some v => .reg v | none => .refused) s)

/-- `BUF_READ id, offset` (R261): accepted at any time; an element at or beyond the current length has no value. -/
def execBufRead (id : Byte) (offset : U16) (s : State) : Out :=
  .next (returnOnly (match readBuffer s id offset.toNat with | some b => .byte b | none => .refused) s)

/-- `CFG_WRITE number, value` (R262). -/
def execCfgWrite (number : Byte) (value : U16) (s : State) : Out :=
  whenIdle s fun s => .next <|
    match writeSetting s.cfg number value with
    | some c => endOk .none { s with cfg := c }
    | none => raise 8 s

/-- `SOFT_RESET` (R263): exactly the effect of the reset input. -/
def execSoftReset (s : State) : Out := whenIdle s fun s => .next (endOk .none (resetBlock s))

end Sys2Proof.Machine
end

