-- ==== Sys2Proof/Machine/Dispatch.lean ====
section
/-!
DEFINITION. One arm per instruction, each a direct call of its meaning.
-/
namespace Sys2Proof.Machine

def exec (i : Instr) (s : State) : Host.Outcome State Fault Refusal :=
  match i with
  | .crcInit => Sys2Proof.Machine.execCrcInit s
  | .crcByte b => Sys2Proof.Machine.execCrcByte b s
  | .buildRequest a fc reg v1 v2 => Sys2Proof.Machine.execBuildRequest a fc reg v1 v2 s
  | .parseResponse bs => Sys2Proof.Machine.execParseResponse bs s
  | .decFc => Sys2Proof.Machine.execDecFc s
  | .decErrbc => Sys2Proof.Machine.execDecErrbc s
  | .decRegs start count => Sys2Proof.Machine.execDecRegs start count s
  | .decCoils count => Sys2Proof.Machine.execDecCoils count s
  | .decCrcok => Sys2Proof.Machine.execDecCrcok s
  | .readHoldingRegisters a reg count => Sys2Proof.Machine.execReadHoldingRegisters a reg count s
  | .readCoils a reg count => Sys2Proof.Machine.execReadCoils a reg count s
  | .writeSingleRegister a reg v => Sys2Proof.Machine.execWriteSingleRegister a reg v s
  | .writeSingleCoil a reg st => Sys2Proof.Machine.execWriteSingleCoil a reg st s
  | .writeMultipleRegisters a reg count data => Sys2Proof.Machine.execWriteMultipleRegisters a reg count data s
  | .writeMultipleCoils a reg count coils => Sys2Proof.Machine.execWriteMultipleCoils a reg count coils s
  | .fwStart image => Sys2Proof.Machine.execFwStart image s
  | .cfgWrite number v => Sys2Proof.Machine.execCfgWrite number v s
  | .regRead number => Sys2Proof.Machine.execRegRead number s
  | .bufRead id offset => Sys2Proof.Machine.execBufRead id offset s
  | .softReset => Sys2Proof.Machine.execSoftReset s
  | .reqReadCoils a reg v1 => Sys2Proof.Machine.execReqReadCoils a reg v1 s
  | .reqReadDiscreteInputs a reg v1 => Sys2Proof.Machine.execReqReadDiscreteInputs a reg v1 s
  | .reqReadHoldingRegisters a reg v1 => Sys2Proof.Machine.execReqReadHoldingRegisters a reg v1 s
  | .reqReadInputRegisters a reg v1 => Sys2Proof.Machine.execReqReadInputRegisters a reg v1 s
  | .reqWriteSingleCoil a reg v1 => Sys2Proof.Machine.execReqWriteSingleCoil a reg v1 s
  | .reqWriteSingleRegister a reg v1 => Sys2Proof.Machine.execReqWriteSingleRegister a reg v1 s
  | .reqWriteMultipleCoils a reg v1 coils => Sys2Proof.Machine.execReqWriteMultipleCoils a reg v1 coils s
  | .reqWriteMultipleRegisters a reg v1 data => Sys2Proof.Machine.execReqWriteMultipleRegisters a reg v1 data s
  | .reqExceptionClass a code reg v1 => Sys2Proof.Machine.execReqExceptionClass a code reg v1 s

end Sys2Proof.Machine
end

