-- ==== Sys2Proof/Machine/Sequencer.lean ====
section
/-!
DEFINITION. The Core's own moves (43_rtu_arbiter.md R201 to R206): what it does next is decided by `PHASE`, by `BUSY` and,
between the exchanges of a session, by `FW_STATE` and `BLK_IDX` (10_state.md R23). A move the Core cannot make yet changes
nothing: it waits for the Transport (R298, U6) or for Time (R205, R206).
-/
namespace Sys2Proof.Machine

/-- The window may close: `n` bytes are collected, or the countdown has run out (R205). -/
def windowEnds (s : State) : Bool :=
  decide (s.rx.exp.toNat ≤ s.hidden.rxAcc.length) || s.hidden.windowLeft == 0

/-- One move of the Core. -/
def coreMove (s : State) : Out :=
  match s.phase with
  | .tx => if s.tx.bytes.length ≤ s.hidden.txPos then .next (afterTransmit s) else .next s
  | .rxWait => if windowEnds s then .next (closeWindow s.hidden.rxAcc s.rx.exp s) else .next s
  | .gap => if s.hidden.gapLeft = 0 then .next (afterExchange (endExchange s)) else .next s
  | .idle => if s.busy then continueSession s else .next s

/-- The next move and the state without it; none when no agent has a move (R303: the Core is idle and does nothing). -/
def nextMove (s : State) : Option (Move × State) :=
  match s.env.moves with
  | [] => none
  | m :: rest => some (m, { s with env := { s.env with moves := rest } })

/-- How a presentation that is no instruction ends. An illegal code is a command of its own (R116). A request body that no
form encodes to acts as `BUILD_REQUEST` of the operands it carries (log entry 2): `VALUE1` keeps its value when the function
code gives it no place (R112), and the checks refuse what R117 to R119 refuse. Bytes that do not carry the operands of their
command are refused by name. -/
def rejectedPresentation (e : DecodeError) (s : State) : Out :=
  match e with
  | .illegalCode _ => illegalCommand s
  | .noShape a fc reg => execBuildRequest a fc reg s.opnd.value1 .absent s
  | .otherBody a fc reg v1 v2 => execBuildRequest a fc reg v1 v2 s
  | .noCode => .refused .malformedCommand
  | .badOperands _ => .refused .malformedCommand
  | .shortBody => .refused .malformedRequest

end Sys2Proof.Machine
end

