-- ==== Sys2Proof/Machine/Step.lean ====
section
/-!
DEFINITION. One step: the next move of the schedule (00_scope.md R10, log entry 1). A presentation is decoded and, when it is
an instruction, executed; the other moves are those of the Core, the Transport, Time and the reset input.
-/
namespace Sys2Proof.Machine

/-- The Host's move: the instruction the decoder reads, executed, or the end of a presentation that is none. -/
def hostMove (p : Presented) (s : State) : Host.Outcome State Fault Refusal :=
  match decode p with
  | .instr i => exec i s
  | .rejected e => rejectedPresentation e s

/-- One step of the machine. -/
def step (s : State) : Host.Outcome State Fault Refusal :=
  match nextMove s with
  | none => .next s
  | some (.host p, s1) => hostMove p s1
  | some (.resetInput, s1) => .next (resetBlock s1)
  | some (.core, s1) => coreMove s1
  | some (.takes k, s1) => .next (transportTakes k s1)
  | some (.gives bs, s1) => .next (transportGives bs s1)
  | some (.elapse ms, s1) => .next (timeElapses ms s1)

/-- The state with a table word's presentation as the next move (log entry 1). -/
def State.withFetchWord (s : State) (nbits w : Nat) : State :=
  { s with env := { s.env with moves := .host (presentTableWord nbits w) :: s.env.moves } }

end Sys2Proof.Machine
end

