-- ==== Sys2Proof/Safety.lean ====
section
/-!
DEFINITION. What counts as a good state of the machine: the invariant that reset meets and every step keeps; and the runs
the claims speak of, a state driven by a list of moves.
-/
namespace Sys2Proof.Machine

/-- Buffers have their sizes and lengths stay within them (R28 to R31, R47, R50). -/
structure BuffersInv (s : State) : Prop where
  wData : s.opnd.wData.length = 254
  wLen : s.opnd.wLen.toNat ≤ 254
  wBits : s.opnd.wBits.length = 2039
  wbLen : s.opnd.wbLen.toNat ≤ 2039
  txBuf : s.tx.buf.length = 264
  txLen : s.tx.len.toNat ≤ 264
  rxBuf : s.rx.buf.length = 260
  rxLen : s.rx.len.toNat ≤ 260
  blkBuf : s.session.blkBuf.length = 128
  initResp : s.session.initResp.length = 8
  initRespLen : s.session.initRespLen.toNat ≤ 8

/-- The flags agree with the bytes in `RXBUF` (R35, R36), and `ERRINFO` is zero but for an exception response or a
protocol violation, whose causes are 1 to 11 (R34, R287). -/
structure FlagsInv (s : State) : Prop where
  crcOk : s.rx.crcOk = Machine.crcOk s.rx.bytes
  exc : s.rx.exc = excBit s.rx.bytes
  errInfo : s.result.status ≠ .exceptionResponse → s.result.status ≠ .protocolViolation → s.result.errInfo = 0
  cause : s.result.status = .protocolViolation → 1 ≤ s.result.errInfo.toNat ∧ s.result.errInfo.toNat ≤ 11

/-- The legal values of the configuration registers (R37, R43). -/
structure SettingsInv (s : State) : Prop where
  gap : 1 ≤ s.cfg.tIfgMs.toNat
  address : s.cfg.fwDevAddr.toNat ≤ 247

/-- `BUSY`, `PHASE` and the exchange in progress (R32, R201, R205): the Core is idle when not busy; the frame in `TXBUF` is
that of the operand registers; the window collects at most `RXEXP` bytes; in a session `n` is 8. -/
structure ExchangeInv (s : State) : Prop where
  idle : s.busy = false → s.phase = .idle ∧ inSession s.session.fwState = false
  between : s.busy = true → s.phase = .idle → s.session.fwState = .transferring ∨ s.session.fwState = .committing
  address : s.phase ≠ .idle → s.opnd.devAddr.toNat ≤ 247
  frame : s.phase ≠ .idle → s.tx.bytes = s.opnd.frame
  handed : s.phase = .tx → s.hidden.txPos ≤ s.tx.len.toNat
  size : s.phase = .tx → expectedLength s.opnd.func s.opnd.value1 ≤ 260
  sizeInSession : s.phase = .tx → inSession s.session.fwState = true → expectedLength s.opnd.func s.opnd.value1 = 8
  window : s.phase = .rxWait → s.rx.exp.toNat ≤ 260 ∧ s.hidden.rxAcc.length ≤ s.rx.exp.toNat
  windowInSession : s.phase = .rxWait → inSession s.session.fwState = true → s.rx.exp.toNat = 8
  gapInSession : s.phase = .gap → inSession s.session.fwState = true → s.rx.len.toNat ≤ 8

/-- The session registers (R46, R249, R251) and the image memory (R66). -/
structure SessionInv (s : State) : Prop where
  blkCnt : s.session.blkCnt.toNat = blockCount s.session.imgSize.toNat
  blkIdx : s.session.blkIdx.toNat ≤ s.session.blkCnt.toNat
  bytesDone : s.session.bytesDone.toNat = min (128 * s.session.blkIdx.toNat) s.session.imgSize.toNat
  initializing : s.session.fwState = .initializing → s.session.blkIdx = 0
  inBlock : s.session.fwState = .transferring → s.phase ≠ .idle → s.session.blkIdx.toNat < s.session.blkCnt.toNat
  committing : s.session.fwState = .committing ∨ s.session.fwState = .done → s.session.blkIdx = s.session.blkCnt
  memWf : Memory.wf s.mem = true
  image : inSession s.session.fwState = true → s.mem.map Prod.fst = List.range s.session.imgSize.toNat

/-- The invariant of the machine. -/
structure Inv (s : State) : Prop where
  buffers : BuffersInv s
  flags : FlagsInv s
  settings : SettingsInv s
  exchange : ExchangeInv s
  session : SessionInv s

/-- The state with a schedule of moves in place of its own. -/
def withMoves (s : State) (ms : List Move) : State := { s with env := { s.env with moves := ms } }

/-- The outcome of the run in which exactly the moves `ms` are made from `s`. -/
def driven (s : State) (ms : List Move) : Out := Host.Core.run core ms.length (withMoves s ms)

/-- The moves of one exchange that is answered with `r` (R202): the Transport takes the whole request; the window opens;
the Transport delivers `r`; Time runs past the response timeout; the window closes; Time runs past the inter-frame delay;
the exchange ends. -/
def answeredBy (s : State) (r : List Byte) : List Move :=
  [.takes s.tx.len.toNat, .core, .gives r, .elapse (responseTimeout s), .core, .elapse s.cfg.tIfgMs.toNat, .core]

/-- The moves of one broadcast exchange (R204): no window. -/
def broadcastMoves (s : State) : List Move :=
  [.takes s.tx.len.toNat, .core, .elapse s.cfg.tIfgMs.toNat, .core]

/-- The milliseconds a list of moves lets pass. -/
def elapsedMs : List Move → Nat
  | [] => 0
  | .elapse ms :: rest => ms + elapsedMs rest
  | _ :: rest => elapsedMs rest

/-- The bytes a list of moves delivers. -/
def delivered : List Move → List Byte
  | [] => []
  | .gives bs :: rest => bs ++ delivered rest
  | _ :: rest => delivered rest

/-- The number of bytes the Transport takes, at most, in a list of moves. -/
def takenAtMost : List Move → Nat
  | [] => 0
  | .takes k :: rest => k + takenAtMost rest
  | _ :: rest => takenAtMost rest

/-- The next move is a reset: the reset input, or `SOFT_RESET` on the port. -/
def ResetNext (s : State) : Prop :=
  ∃ m rest, s.env.moves = m :: rest ∧
    (m = .resetInput ∨ ∃ p, m = .host p ∧ decode p = .instr .softReset)

/-- The next move is the Host's, and it presents the instruction `i`. -/
def Presents (s : State) (i : Instr) : Prop :=
  ∃ p rest, s.env.moves = .host p :: rest ∧ decode p = .instr i

/-- The next move is the Core's, and it ends the exchange in progress (R202, R206): the inter-frame delay has run. -/
def ExchangeEnds (s : State) : Prop :=
  s.phase = .gap ∧ s.hidden.gapLeft = 0 ∧ ∃ rest, s.env.moves = .core :: rest

/-- A command that is accepted at any time (R111): `REG_READ` or `BUF_READ`. -/
def isRead : Instr → Bool
  | .regRead _ => true
  | .bufRead _ _ => true
  | _ => false

/-- The code a command is given with on the port (R113); none for a request form. -/
def commandCode (i : Instr) : Option Byte :=
  match encode i with
  | .command bytes => bytes.head?
  | .request _ => none

/-- A sequence in front of what a buffer held (R150: `BUF[0 : len] <- s`). -/
def inFront (s buf : List Byte) : List Byte := s ++ buf.drop s.length

/-- `TXBUF` and `TXLEN` after the frame with the given body was built (R109, R150). -/
def frameIn (s : State) (body : List Byte) : TxFrame :=
  { buf := inFront (withCrc body) s.tx.buf, len := BitVec.ofNat 16 (body.length + 2) }

/-- `RXBUF`, `RXLEN`, `RXEXP` and the flags after the bytes `r` were received or loaded (R180, R202). -/
def bytesIn (s : State) (r : List Byte) (exp : U16) : RxFrame :=
  { buf := inFront r s.rx.buf
    len := BitVec.ofNat 16 r.length
    exp := exp
    crcOk := decide (2 ≤ r.length ∧ crc16 (r.take (r.length - 2)) = u16le r (r.length - 2))
    exc := decide (2 ≤ r.length ∧ (r.getD 1 0).getLsbD 7 = true) }

/-- The instruction builds the frame with the given body and sends nothing (R150): the operand registers are `o`, the
frame is in `TXBUF`, `ret` is `TXLEN`, the status is `OK`, and nothing else changed. -/
def Builds (s : State) (i : Instr) (o : Operands) (body : List Byte) : Prop :=
  exec i s = .next { s with
    opnd := o
    tx := frameIn s body
    result := { status := .ok, errInfo := 0, ret := .word (BitVec.ofNat 16 (body.length + 2)) } }

/-- The instruction ends at once with `ProtocolViolation(k)` (R290): the operand registers are `o`, and nothing else
changed. -/
def Refuses (s : State) (i : Instr) (o : Operands) (k : Byte) : Prop :=
  exec i s = .next { s with
    opnd := o
    result := { status := .protocolViolation, errInfo := k, ret := .none } }

/-- The instruction ends with `OK` and the value `r` (R186), and nothing else changed. -/
def Returns (s : State) (i : Instr) (r : Ret) : Prop :=
  exec i s = .next { s with result := { status := .ok, errInfo := 0, ret := r } }

/-- The state in which the exchange of a request just began (R112, R202): the operand registers are `o`, `TXBUF` holds the
request with the given body, `BUSY` is 1, `PHASE` is `TX`, and nothing else changed. -/
def started (s : State) (o : Operands) (body : List Byte) : State :=
  { s with busy := true, phase := .tx, opnd := o, tx := frameIn s body, hidden := .reset }

/-- The exchange that began in `t` runs to its end when it is answered with `r`, and leaves what R202 says: the request
on the wire, `r` in `RXBUF`, `RXEXP = n`, the flags, the classification, `ret = r`; nothing else changed. -/
def Answered (t : State) (n : Nat) (r : List Byte) : Prop :=
  ∃ h, driven t (answeredBy t r) = .next { t with
    busy := false
    phase := .idle
    rx := bytesIn t r (BitVec.ofNat 16 n)
    result := {
      status := (classify t.opnd.devAddr n r).1
      errInfo := (classify t.opnd.devAddr n r).2
      ret := .bytes r }
    hidden := h
    env := { t.env with moves := [], wire := t.env.wire ++ t.tx.bytes } }

/-- The broadcast exchange that began in `t` runs to its end without a response window (R204, R282). -/
def Unanswered (t : State) : Prop :=
  ∃ h, driven t (broadcastMoves t) = .next { t with
    busy := false
    phase := .idle
    rx := bytesIn t [] 0
    result := { status := .noResponse, errInfo := 0, ret := .bytes [] }
    hidden := h
    env := { t.env with moves := [], wire := t.env.wire ++ t.tx.bytes } }

/-- What an Arbiter command does from `s`: it is accepted and its exchange begins; addressed to a device, the exchange
ends with whatever answer of at most `n` bytes comes; addressed to all, it ends without one. -/
def Exchanges (s : State) (i : Instr) (o : Operands) (body : List Byte) (n : Nat) : Prop :=
  exec i s = .next (started s o body) ∧
  (started s o body).tx.bytes = withCrc body ∧
  (o.devAddr ≠ 0 → ∀ r : List Byte, r.length ≤ n → Answered (started s o body) n r) ∧
  (o.devAddr = 0 → Unanswered (started s o body))

/-- The table of 10_state.md R52: each register's number with its value. -/
def registerTable (s : State) : List (Byte × Nat) :=
  [(0x00, s.crc.toNat),
   (0x01, match s.phase with | .idle => 0 | .tx => 1 | .rxWait => 2 | .gap => 3),
   (0x02, match s.session.fwState with
     | .idle => 0 | .initializing => 1 | .transferring => 2 | .committing => 3 | .done => 4 | .failed => 5),
   (0x03, s.session.blkIdx.toNat),
   (0x08, s.opnd.devAddr.toNat), (0x09, s.opnd.func.toNat), (0x0A, s.opnd.regAddr.toNat),
   (0x0B, s.opnd.value1.toNat), (0x0C, s.opnd.wLen.toNat), (0x0D, s.opnd.wbLen.toNat),
   (0x10, s.tx.len.toNat), (0x11, s.rx.len.toNat), (0x12, s.rx.exp.toNat),
   (0x18, s.busy.toNat),
   (0x19, match s.result.status with
     | .ok => 0 | .noResponse => 1 | .timeout => 2 | .shortFrame => 3 | .crcMismatch => 4
     | .exceptionResponse => 5 | .protocolViolation => 6),
   (0x1A, s.result.errInfo.toNat), (0x1B, s.rx.crcOk.toNat), (0x1C, s.rx.exc.toNat),
   (0x20, s.cfg.tIfgMs.toNat), (0x21, s.cfg.tRespMs.toNat), (0x22, s.cfg.fwTRespMs.toNat),
   (0x23, s.cfg.regUpdInit.toNat), (0x24, s.cfg.regUpdRun.toNat), (0x25, s.cfg.regBlkUpload.toNat),
   (0x26, s.cfg.fwDevAddr.toNat), (0x27, s.cfg.fwValidateAcks.toNat),
   (0x30, s.session.imgSize.toNat), (0x31, s.session.blkCnt.toNat), (0x32, s.session.bytesDone.toNat),
   (0x33, s.session.commitElapsedMs.toNat), (0x34, s.session.initRespLen.toNat)]

/-- Block `k` of an image, padded with 0xFF to 128 bytes (R248). -/
def paddedBlock (image : List Byte) (k : Nat) : List Byte :=
  (image.drop (128 * k)).take 128 ++ List.replicate (128 - min 128 (image.length - 128 * k)) 0xFF

/-- The body of the initialize and commit requests for a register of the device (R244, R254). -/
def magicBody (c : Settings) (register : U16) : List Byte := [c.fwDevAddr, 0x06] ++ be16 register ++ [0xF5, 0xF5]

/-- The body of a block's request (R247). -/
def blockBody (c : Settings) (block : List Byte) : List Byte :=
  [c.fwDevAddr, 0x10] ++ be16 c.regBlkUpload ++ [0x00, 0x40, 0x80] ++ block

/-- The response passes the check of Initialize and Commit (R245). -/
def GoodAck (r : List Byte) : Prop := r.length = 8 ∧ crcOk r = true

/-- The response passes the check of a block (R245). -/
def GoodBlockAck (validate : Bool) (r : List Byte) : Prop := r.length = 8 ∧ (validate = true → crcOk r = true)

/-- The moves of one exchange of a session that is answered in full, so that its window closes at once: a request of `n`
bytes, the answer `r`. -/
def sessionExchange (s : State) (n : Nat) (r : List Byte) : List Move :=
  [.takes n, .core, .gives r, .core, .elapse s.cfg.tIfgMs.toNat, .core]

/-- The moves that carry a started session of an image of `n` bytes to its end: the exchange of Initialize, an exchange
for each block, each begun by a move of the Core, and, after the change to Commit, the exchange of Commit. -/
def sessionMoves (s : State) (n : Nat) (initAck : List Byte) (acks : Nat → List Byte) (commitAck : List Byte) :
    List Move :=
  sessionExchange s 8 initAck ++
  (List.range ((n + 127) / 128)).flatMap (fun k => .core :: sessionExchange s 137 (acks k)) ++
  [.core, .core] ++ sessionExchange s 8 commitAck

/-- The bytes a whole session puts on the wire (R242): the initialize frame, the frames of the blocks in their order, the
commit frame. -/
def sessionFrames (c : Settings) (image : List Byte) : List Byte :=
  withCrc (magicBody c c.regUpdInit) ++
  (List.range ((image.length + 127) / 128)).flatMap (fun k => withCrc (blockBody c (paddedBlock image k))) ++
  withCrc (magicBody c c.regUpdRun)

end Sys2Proof.Machine
end

