-- ==== Sys2Proof/Certificates/Slice0/Obligations.lean ====
section
/-!
DEFINITION. The statements for the provers. Each docstring names the rules of spec/ it formalises. A statement whose
conclusion is `exec i s = .next …` (`Builds`, `Returns`, `Exchanges` and the plain equations) names every part of the state
the instruction changes: everything else, every byte of the image memory included, is as it was.
-/
open Sys2Proof Sys2Proof.Machine

/-! ### Reset and the invariant -/

/-- 70_reset_and_hazards.md R321: the reset value of every register, flag and buffer, group by group; an element beyond a
buffer's length has no readable value. -/
def Obligations.ResetRegisterValues : Prop :=
  let s := State.reset
  (s.phase = .idle ∧ s.session.fwState = .idle ∧ s.session.blkIdx = 0) ∧
  s.crc = 0xFFFF ∧
  (s.opnd.devAddr = 0 ∧ s.opnd.func = 0 ∧ s.opnd.regAddr = 0 ∧ s.opnd.value1 = 0 ∧ s.opnd.wLen = 0 ∧
    s.opnd.wbLen = 0 ∧ s.opnd.wData = List.replicate 254 0 ∧ s.opnd.wBits = List.replicate 2039 false) ∧
  (s.tx.len = 0 ∧ s.rx.len = 0 ∧ s.rx.exp = 0 ∧ s.session.initRespLen = 0 ∧ s.tx.buf = List.replicate 264 0 ∧
    s.rx.buf = List.replicate 260 0 ∧ s.session.initResp = List.replicate 8 0 ∧
    s.session.blkBuf = List.replicate 128 0xFF) ∧
  (s.busy = false ∧ s.result.status = .ok ∧ s.result.errInfo = 0 ∧ s.rx.crcOk = false ∧ s.rx.exc = false) ∧
  (s.cfg.tIfgMs = 50 ∧ s.cfg.tRespMs = 1000 ∧ s.cfg.fwTRespMs = 30000 ∧ s.cfg.regUpdInit = 0 ∧
    s.cfg.regUpdRun = 0 ∧ s.cfg.regBlkUpload = 0 ∧ s.cfg.fwDevAddr = 1 ∧ s.cfg.fwValidateAcks = true) ∧
  (s.session.imgSize = 0 ∧ s.session.blkCnt = 0 ∧ s.session.bytesDone = 0 ∧ s.session.commitElapsedMs = 0) ∧
  (∀ (id : Byte) (offset : U16), id.toNat < 5 →
    exec (.bufRead id offset) s = .next { s with result := { s.result with ret := .refused } })

/-- The invariant holds right after reset (10_state.md R23, R28 to R52). -/
def Obligations.ResetMeetsInvariant : Prop := Inv State.reset

/-- Every step from a state that meets the invariant leads to one that meets it. -/
def Obligations.StepKeepsInvariant : Prop := ∀ s t : State, Inv s → step s = .next t → Inv t

/-- 20_memory.md R67: in a state that meets the invariant no step asks for image bytes that do not exist; the machine
never faults. -/
def Obligations.InvariantExcludesFaults : Prop := ∀ (s : State) (f : Fault), Inv s → step s ≠ .fault f

/-- 45_host_access.md R263, 70_reset_and_hazards.md R320: the reset input at any time, and `SOFT_RESET` when idle, put
every register and buffer at its reset value; the image and the model's own fields stay. (The model's choices: that the image
memory stays is log entry 4, that `ret` is then `none` log entry 5, and that the reset input has its effect during an
exchange too log entry 10, U14.) -/
def Obligations.ResetInputAndSoftReset : Prop :=
  ∀ s : State,
    (∀ rest, s.env.moves = .resetInput :: rest →
      step s = .next { State.reset with mem := s.mem, env := { s.env with moves := rest } }) ∧
    (s.busy = false → exec .softReset s = .next { State.reset with mem := s.mem, env := s.env })

/-! ### Encoding -/

/-- Decoding the encoding of a well-formed instruction gives the instruction, every operand at every value. -/
def Obligations.DecodeOfEncode : Prop := ∀ i : Instr, i.wellFormed = true → decode (encode i) = .instr i

/-- What the decoder reads is well formed, and its encoding is what was presented: each presentation has one reading. -/
def Obligations.EncodeOfDecode : Prop :=
  ∀ (p : Presented) (i : Instr), decode p = .instr i → i.wellFormed = true ∧ encode i = p

/-- A presentation that decodes to an instruction is executed: the step is `exec` of it, on the state without that move. A request
body that no form encodes to acts as `BUILD_REQUEST` of the operands it carries, with `VALUE1` as it is when the function code
has no shape; so no body that carries the operands of `BUILD_REQUEST` stops. (What such a body does is the model's choice, log
entry 2.) -/
def Obligations.StepRunsDecodedInstruction : Prop :=
  ∀ (s : State) (p : Presented) (rest : List Move), s.env.moves = .host p :: rest →
    (∀ i, decode p = .instr i → step s = exec i (withMoves s rest)) ∧
    (∀ a fc reg v1 v2, decode p = .rejected (.otherBody a fc reg v1 v2) →
      step s = exec (.buildRequest a fc reg v1 v2) (withMoves s rest)) ∧
    (∀ a fc reg, decode p = .rejected (.noShape a fc reg) →
      step s = exec (.buildRequest a fc reg s.opnd.value1 .absent) (withMoves s rest)) ∧
    (∀ body, p = .request body → 6 ≤ body.length → ∃ t, step s = .next t)

/-- 30_encoding.md R113, 41_frame_encoder.md R151 to R159: sample words of every family. -/
def Obligations.SampleWordsDecode : Prop :=
  decode (.command [0x01]) = .instr .crcInit ∧
  decode (.command [0x0A]) = .instr .decFc ∧
  decode (.command [0x12, 0x05, 0x12, 0x34, 0xF5, 0xF5]) = .instr (.writeSingleRegister 5 0x1234 0xF5F5) ∧
  decode (.command [0x20, 0xA5]) = .instr (.fwStart [0xA5]) ∧
  decode (.command [0x30, 0x26, 0x00, 0x05]) = .instr (.cfgWrite 0x26 5) ∧
  decode (.request [0x11, 0x01, 0x00, 0x13, 0x00, 0x25]) = .instr (.reqReadCoils 0x11 0x0013 0x0025) ∧
  decode (.request [0x01, 0x05, 0x00, 0xAC, 0xFF, 0x00]) = .instr (.reqWriteSingleCoil 1 0x00AC 1) ∧
  decode (.request [0x01, 0x0F, 0x00, 0x00, 0x00, 0x08, 0x02, 0x81, 0x00]) =
    .instr (.reqWriteMultipleCoils 1 0 8 [true, false, false, false, false, false, false, true]) ∧
  decode (.request [0x01, 0x10, 0x00, 0x00, 0x00, 0x02, 0x04, 0x00, 0x01, 0xAB, 0xCD]) =
    .instr (.reqWriteMultipleRegisters 1 0 2 [0x00, 0x01, 0xAB, 0xCD]) ∧
  decode (.request [0x01, 0x86, 0x00, 0x01, 0x02]) = .instr (.reqExceptionClass 1 0x06 1 2)

/-- 30_encoding.md R116: a command code that is not in the table, with any operands, is accepted when idle, changes
nothing but `STATUS` and `ERRINFO` (and returns nothing), and ends at once. -/
def Obligations.IllegalCodeRaisesOne : Prop :=
  ∀ (s : State) (op : Byte) (args : List Byte) (rest : List Move),
    op.toNat = 0x00 ∨ (0x03 ≤ op.toNat ∧ op.toNat ≤ 0x07) ∨ op.toNat = 0x0F ∨
      (0x16 ≤ op.toNat ∧ op.toNat ≤ 0x1F) ∨ (0x21 ≤ op.toNat ∧ op.toNat ≤ 0x2F) ∨
      (0x33 ≤ op.toNat ∧ op.toNat ≤ 0x3E) ∨ 0x40 ≤ op.toNat →
    s.busy = false → s.env.moves = .host (.command (op :: args)) :: rest →
    step s = .next { withMoves s rest with
      result := { status := .protocolViolation, errInfo := 1, ret := .none } }

/-! ### The CRC Engine -/

/-- 40_crc_engine.md R132, R133: `CRC_INIT`, and `CRC_BYTE b` with its eight iterations written out. -/
def Obligations.CrcCommands : Prop :=
  ∀ (b : Byte) (s : State),
    let c : U16 := (fun c : U16 => if c.getLsbD 0 then (c >>> 1) ^^^ 0xA001 else c >>> 1)^[8] (s.crc ^^^ b.setWidth 16)
    commandCode .crcInit = some 0x01 ∧
    commandCode (.crcByte b) = some 0x02 ∧
    (s.busy = false →
      exec .crcInit s = .next { s with crc := 0xFFFF, result := { status := .ok, errInfo := 0, ret := .none } } ∧
      exec (.crcByte b) s = .next { s with crc := c, result := { status := .ok, errInfo := 0, ret := .word c } })

/-- 40_crc_engine.md R134: the pure function, byte by byte from the seed. -/
def Obligations.CrcFunction : Prop :=
  crc16 [] = 0xFFFF ∧
  ∀ (s : List Byte) (b : Byte),
    crc16 (s ++ [b]) =
      (fun c : U16 => if c.getLsbD 0 then (c >>> 1) ^^^ 0xA001 else c >>> 1)^[8] (crc16 s ^^^ b.setWidth 16)

/-- 40_crc_engine.md R135: from any idle state, `CRC_INIT` and then `CRC_BYTE` of each byte of a sequence, of any length,
leave `CRC` at `crc16` of the sequence. -/
def Obligations.StreamingCrcIsCrc16 : Prop :=
  ∀ (s : State) (bs : List Byte), s.busy = false →
    ∃ t, driven s (.host (encode .crcInit) :: bs.map fun b => .host (encode (.crcByte b))) = .next t ∧
      t.crc = crc16 bs

/-- 40_crc_engine.md R137 (e): the residue of a frame is 0, and a zero residue and the comparison of `crc_ok` accept the
same sequences of two bytes or more. -/
def Obligations.CrcResidue : Prop :=
  (∀ s : List Byte, crc16 (s ++ [lo (crc16 s), hi (crc16 s)]) = 0) ∧
  (∀ r : List Byte, 2 ≤ r.length → (crcOk r = true ↔ crc16 r = 0))

/-- 40_crc_engine.md R137 (c): two sequences of equal length that differ in exactly one bit have different checksums. -/
def Obligations.CrcSeesSingleBitChange : Prop :=
  ∀ (before after : List Byte) (b : Byte) (k : Nat), k < 8 →
    crc16 (before ++ [b] ++ after) ≠ crc16 (before ++ [b ^^^ ((1 : Byte) <<< k)] ++ after)

/-- 10_state.md R21: `CRC` is 0xFFFF at reset and changes only by `CRC_INIT`, `CRC_BYTE` and reset; and no command but those
and `REG_READ` depends on it: started with another value in `CRC`, any other command does the same and leaves that value. -/
def Obligations.CrcIsUsedByItsCommandsOnly : Prop :=
  State.reset.crc = 0xFFFF ∧
  (∀ s t : State, step s = .next t → t.crc ≠ s.crc →
    Presents s .crcInit ∨ (∃ b, Presents s (.crcByte b)) ∨ ResetNext s) ∧
  (∀ (i : Instr) (s t : State) (c : U16),
    i ≠ .crcInit → (∀ b, i ≠ .crcByte b) → (∀ n, i ≠ .regRead n) → i ≠ .softReset →
    exec i s = .next t → t.crc = s.crc ∧ exec i { s with crc := c } = .next { t with crc := c })

/-! ### The Frame Codec, encoder -/

/-- 41_frame_encoder.md R151 to R154, R156: the five forms whose payload is `be16(VALUE1)`, given as `BUILD_REQUEST` (with or
without a `value2`, which is ignored) and as a request form; `VALUE1` may be anything. (That a request form acts as
`BUILD_REQUEST` is the model's reading, log entry 2.) -/
def Obligations.PlainFormsBuildTheirFrames : Prop :=
  ∀ (s : State) (a : Byte) (reg v1 : U16) (v2 : Value2), s.busy = false → a.toNat ≤ 247 →
    ∀ p ∈ [((0x01 : Byte), Instr.reqReadCoils a reg v1), (0x02, .reqReadDiscreteInputs a reg v1),
        (0x03, .reqReadHoldingRegisters a reg v1), (0x04, .reqReadInputRegisters a reg v1),
        (0x06, .reqWriteSingleRegister a reg v1)],
      let o := { s.opnd with devAddr := a, func := p.1, regAddr := reg, value1 := v1 }
      let body := [a, p.1] ++ be16 reg ++ be16 v1
      Builds s (.buildRequest a p.1 reg v1 v2) o body ∧ Builds s p.2 o body

/-- 41_frame_encoder.md R155: Write Single Coil; every non-zero `VALUE1` gives 0xFF00, zero gives 0x0000. (That a request form acts as
`BUILD_REQUEST` is the model's reading, log entry 2.) -/
def Obligations.SingleCoilForm : Prop :=
  ∀ (s : State) (a : Byte) (reg v1 : U16) (v2 : Value2), s.busy = false → a.toNat ≤ 247 →
    let o := { s.opnd with devAddr := a, func := 0x05, regAddr := reg, value1 := v1 }
    let body := [a, 0x05] ++ be16 reg ++ (if v1 = 0 then [0x00, 0x00] else [0xFF, 0x00])
    Builds s (.buildRequest a 0x05 reg v1 v2) o body ∧ Builds s (.reqWriteSingleCoil a reg v1) o body

/-- 41_frame_encoder.md R157, 30_encoding.md R107, R108: Write Multiple Coils. The packed field `p` has `floor(VALUE1/8) + 1`
bytes; bit `k` of byte `j` is coil `8j + k`, and every bit beyond the coils is 0. A count above 2039, then a length that is not
the count, is refused; an operand too long to latch is compared by its own length. Without a `value2` the latched `WBITS` and
`WBLEN` are used. (That a request form acts as
`BUILD_REQUEST` is the model's reading, log entry 2.) -/
def Obligations.MultipleCoilsForm : Prop :=
  ∀ (s : State) (a : Byte) (reg v1 : U16), s.busy = false → a.toNat ≤ 247 →
    let o := { s.opnd with devAddr := a, func := 0x0F, regAddr := reg, value1 := v1 }
    let packs := fun (coils : List Bool) (p : List Byte) => p.length = v1.toNat / 8 + 1 ∧
      ∀ j k, j < p.length → k < 8 → (p.getD j 0).getLsbD k = (coils.take v1.toNat).getD (8 * j + k) false
    let body := fun p : List Byte => [a, 0x0F] ++ be16 reg ++ be16 v1 ++ [BitVec.ofNat 8 (v1.toNat / 8 + 1)] ++ p
    (∀ coils : List Bool,
      let o2 := { o with wBits := coils ++ s.opnd.wBits.drop coils.length, wbLen := BitVec.ofNat 16 coils.length }
      (v1.toNat ≤ 2039 → coils.length = v1.toNat →
        ∃ p, packs coils p ∧ Builds s (.buildRequest a 0x0F reg v1 (.coils coils)) o2 (body p) ∧
          Builds s (.reqWriteMultipleCoils a reg v1 coils) o2 (body p)) ∧
      (coils.length ≤ 2039 → 2039 < v1.toNat →
        Refuses s (.buildRequest a 0x0F reg v1 (.coils coils)) o2 3 ∧
        Refuses s (.reqWriteMultipleCoils a reg v1 coils) o2 3) ∧
      (coils.length ≤ 2039 → v1.toNat ≤ 2039 → coils.length ≠ v1.toNat →
        Refuses s (.buildRequest a 0x0F reg v1 (.coils coils)) o2 4 ∧
        Refuses s (.reqWriteMultipleCoils a reg v1 coils) o2 4) ∧
      (2039 < coils.length →
        Refuses s (.buildRequest a 0x0F reg v1 (.coils coils)) o (if 2039 < v1.toNat then 3 else 4) ∧
        Refuses s (.reqWriteMultipleCoils a reg v1 coils) o (if 2039 < v1.toNat then 3 else 4))) ∧
    (v1.toNat ≤ 2039 → s.opnd.wbLen = v1 →
      ∃ p, packs s.opnd.wBits p ∧ Builds s (.buildRequest a 0x0F reg v1 .absent) o (body p)) ∧
    (2039 < v1.toNat → Refuses s (.buildRequest a 0x0F reg v1 .absent) o 3) ∧
    (v1.toNat ≤ 2039 → s.opnd.wbLen ≠ v1 → Refuses s (.buildRequest a 0x0F reg v1 .absent) o 4)

/-- 41_frame_encoder.md R158, 30_encoding.md R105: Write Multiple Registers. A count above 127, then a length that is not twice the
count, is refused; an operand too long to latch is compared by its own length. Without a `value2` the latched `WDATA` and
`WLEN` are used. (That a request form acts as
`BUILD_REQUEST` is the model's reading, log entry 2.) -/
def Obligations.MultipleRegistersForm : Prop :=
  ∀ (s : State) (a : Byte) (reg v1 : U16), s.busy = false → a.toNat ≤ 247 →
    let o := { s.opnd with devAddr := a, func := 0x10, regAddr := reg, value1 := v1 }
    let body := fun d : List Byte => [a, 0x10] ++ be16 reg ++ [0x00, lo v1, BitVec.ofNat 8 (2 * v1.toNat)] ++ d
    (∀ data : List Byte,
      let o2 := { o with wData := inFront data s.opnd.wData, wLen := BitVec.ofNat 8 data.length }
      (v1.toNat ≤ 127 → data.length = 2 * v1.toNat →
        Builds s (.buildRequest a 0x10 reg v1 (.data data)) o2 (body data) ∧
        Builds s (.reqWriteMultipleRegisters a reg v1 data) o2 (body data)) ∧
      (data.length ≤ 254 → 127 < v1.toNat →
        Refuses s (.buildRequest a 0x10 reg v1 (.data data)) o2 3 ∧
        Refuses s (.reqWriteMultipleRegisters a reg v1 data) o2 3) ∧
      (data.length ≤ 254 → v1.toNat ≤ 127 → data.length ≠ 2 * v1.toNat →
        Refuses s (.buildRequest a 0x10 reg v1 (.data data)) o2 4 ∧
        Refuses s (.reqWriteMultipleRegisters a reg v1 data) o2 4) ∧
      (254 < data.length →
        Refuses s (.buildRequest a 0x10 reg v1 (.data data)) o (if 127 < v1.toNat then 3 else 4) ∧
        Refuses s (.reqWriteMultipleRegisters a reg v1 data) o (if 127 < v1.toNat then 3 else 4))) ∧
    (v1.toNat ≤ 127 → s.opnd.wLen.toNat = 2 * v1.toNat →
      Builds s (.buildRequest a 0x10 reg v1 .absent) o (body (s.opnd.wData.take (2 * v1.toNat)))) ∧
    (127 < v1.toNat → Refuses s (.buildRequest a 0x10 reg v1 .absent) o 3) ∧
    (v1.toNat ≤ 127 → s.opnd.wLen.toNat ≠ 2 * v1.toNat → Refuses s (.buildRequest a 0x10 reg v1 .absent) o 4)

/-- 30_encoding.md R104: the block integer. One that fits `2 * count` bytes is written in exactly these: byte `j` of `L = 2 * count`
is its bits `8(L-1-j) .. 8(L-1-j)+7`, and read back most significant first they give the integer; the request is built with
them. One that needs more bytes is refused with cause 4, by `BUILD_REQUEST` and by the Arbiter command. (That it is then
written in as many bytes as it needs is the model's reading, log entry 14.) -/
def Obligations.BlockIntegerIsBigEndian : Prop :=
  (∀ count v : Nat,
    let d := blockBytes count v
    d.foldl (fun n b => 256 * n + b.toNat) 0 = v ∧
    (v < 256 ^ (2 * count) → d.length = 2 * count ∧
      ∀ j k, j < 2 * count → k < 8 → (d.getD j 0).getLsbD k = v.testBit (8 * (2 * count - 1 - j) + k)) ∧
    (256 ^ (2 * count) ≤ v → 2 * count < d.length)) ∧
  (∀ (s : State) (a : Byte) (reg count : U16) (v : Nat), s.busy = false → a.toNat ≤ 247 → count.toNat ≤ 127 →
    let d := blockBytes count.toNat v
    let short := { s.opnd with devAddr := a, func := 0x10, regAddr := reg, value1 := count }
    let o := if d.length ≤ 254 then
      { short with wData := inFront d s.opnd.wData, wLen := BitVec.ofNat 8 d.length } else short
    (v < 256 ^ (2 * count.toNat) →
      Builds s (buildRequestInteger a reg count v) o
        ([a, 0x10] ++ be16 reg ++ [0x00, lo count, BitVec.ofNat 8 (2 * count.toNat)] ++ d)) ∧
    (256 ^ (2 * count.toNat) ≤ v →
      Refuses s (buildRequestInteger a reg count v) o 4 ∧
      Refuses s (writeMultipleRegistersInteger a reg count v) o 4))

/-- 41_frame_encoder.md R159: the exception class, all 128 codes; `VALUE1` above 255 is refused. (That a request form acts as
`BUILD_REQUEST` is the model's reading, log entry 2.) -/
def Obligations.ExceptionClassForm : Prop :=
  ∀ (s : State) (a : Byte) (code : BitVec 7) (reg v1 : U16) (v2 : Value2), s.busy = false → a.toNat ≤ 247 →
    let fc : Byte := 0x80 ||| code.setWidth 8
    let o := { s.opnd with devAddr := a, func := fc, regAddr := reg, value1 := v1 }
    let body := [a, fc] ++ be16 reg ++ [lo v1]
    (v1.toNat ≤ 255 →
      Builds s (.buildRequest a fc reg v1 v2) o body ∧ Builds s (.reqExceptionClass a code reg v1) o body) ∧
    (255 < v1.toNat →
      Refuses s (.buildRequest a fc reg v1 v2) o 3 ∧ Refuses s (.reqExceptionClass a code reg v1) o 3)

/-- 30_encoding.md R119: a function code with bit 7 clear and no frame shape, to a legal address. -/
def Obligations.UnlistedFunctionCodeIsRefused : Prop :=
  ∀ (s : State) (a fc : Byte) (reg v1 : U16) (v2 : Value2), s.busy = false → a.toNat ≤ 247 →
    fc.toNat = 0x00 ∨ (0x07 ≤ fc.toNat ∧ fc.toNat ≤ 0x0E) ∨ (0x11 ≤ fc.toNat ∧ fc.toNat ≤ 0x7F) →
    Refuses s (.buildRequest a fc reg v1 v2) { s.opnd with devAddr := a, func := fc, regAddr := reg, value1 := v1 } 5

/-- 30_encoding.md R117: a device address 248..255 is refused with cause 2, before any other check, by every command that
would send or build a frame to it; only the operand registers, `STATUS`, `ERRINFO` (and `ret`) change. (That a request form acts as
`BUILD_REQUEST` is the model's reading, log entry 2.) -/
def Obligations.IllegalAddressIsRefused : Prop :=
  ∀ (s : State) (a : Byte), s.busy = false → 248 ≤ a.toNat →
    (∀ (fc : Byte) (code : BitVec 7) (reg v1 : U16) (v2 : Value2) (st : Bool) (data : List Byte) (coils : List Bool),
      ∀ i ∈ [Instr.buildRequest a fc reg v1 v2, .reqReadCoils a reg v1, .reqReadDiscreteInputs a reg v1,
          .reqReadHoldingRegisters a reg v1, .reqReadInputRegisters a reg v1, .reqWriteSingleCoil a reg v1,
          .reqWriteSingleRegister a reg v1, .reqWriteMultipleCoils a reg v1 coils,
          .reqWriteMultipleRegisters a reg v1 data, .reqExceptionClass a code reg v1,
          .readHoldingRegisters a reg v1, .readCoils a reg v1, .writeSingleRegister a reg v1,
          .writeSingleCoil a reg st, .writeMultipleRegisters a reg v1 data, .writeMultipleCoils a reg v1 coils],
        ∃ o : Operands, o.devAddr = a ∧ o.regAddr = reg ∧ Refuses s i o 2) ∧
    (∀ image : List Byte, s.session.fwState = .idle → s.cfg.fwDevAddr = a → Refuses s (.fwStart image) s.opnd 2)

/-- 30_encoding.md R112: a `data` operand of more than 254 bytes and a `coils` operand of more than 2039 elements are not
latched; the other operands are; the command is refused, with cause 3 when the count does not fit, else with cause 4. (That a request form acts as
`BUILD_REQUEST` is the model's reading, log entry 2.) -/
def Obligations.LongOperandsAreNotLatched : Prop :=
  ∀ (s : State) (a : Byte) (reg v1 : U16), s.busy = false → a.toNat ≤ 247 →
    (∀ data : List Byte, 254 < data.length →
      let o := { s.opnd with devAddr := a, func := 0x10, regAddr := reg, value1 := v1 }
      ∀ i ∈ [Instr.buildRequest a 0x10 reg v1 (.data data), .reqWriteMultipleRegisters a reg v1 data,
          .writeMultipleRegisters a reg v1 data],
        Refuses s i o (if 127 < v1.toNat then 3 else 4)) ∧
    (∀ coils : List Bool, 2039 < coils.length →
      let o := { s.opnd with devAddr := a, func := 0x0F, regAddr := reg, value1 := v1 }
      ∀ i ∈ [Instr.buildRequest a 0x0F reg v1 (.coils coils), .reqWriteMultipleCoils a reg v1 coils,
          .writeMultipleCoils a reg v1 coils],
        Refuses s i o (if 2039 < v1.toNat then 3 else 4))

/-- 41_frame_encoder.md R161: whatever command or session step writes `TXBUF`, the frame in it is the function of the latched
operands that R151 to R160 give, and its checksum is good. -/
def Obligations.FramesAreFunctionsOfOperands : Prop :=
  ∀ s t : State, step s = .next t → t.tx ≠ s.tx →
    ResetNext s ∨ (t.tx.bytes = t.opnd.frame ∧ crcOk t.tx.bytes = true)

/-! ### The Frame Codec, decoder -/

/-- 42_frame_decoder.md R180: `PARSE_RESPONSE`. -/
def Obligations.ParseResponseCommand : Prop :=
  ∀ (s : State) (bytes : List Byte),
    commandCode (.parseResponse bytes) = some 0x09 ∧
    (s.busy = false → bytes.length ≤ 260 →
      exec (.parseResponse bytes) s = .next { s with
        rx := bytesIn s bytes 0
        result := { status := .ok, errInfo := 0, ret := .word (BitVec.ofNat 16 bytes.length) } }) ∧
    (s.busy = false → 260 < bytes.length → Refuses s (.parseResponse bytes) s.opnd 11)

/-- 42_frame_decoder.md R181, R182: `DEC_FC` and `DEC_ERRBC`. -/
def Obligations.HeaderAccessors : Prop :=
  commandCode .decFc = some 0x0A ∧ commandCode .decErrbc = some 0x0B ∧
  ∀ s : State, s.busy = false →
    (2 ≤ s.rx.len.toNat → Returns s .decFc (.byte (s.rx.buf.getD 1 0))) ∧
    (s.rx.len.toNat < 2 → Refuses s .decFc s.opnd 7) ∧
    (3 ≤ s.rx.len.toNat → Returns s .decErrbc (.byte (s.rx.buf.getD 2 0))) ∧
    (s.rx.len.toNat < 3 → Refuses s .decErrbc s.opnd 7)

/-- 42_frame_decoder.md R183: `DEC_REGS`, with the arithmetic on unbounded integers. -/
def Obligations.RegisterAccessor : Prop :=
  ∀ (s : State) (start count : U16),
    let o := 3 + 2 * start.toNat
    commandCode (.decRegs start count) = some 0x0C ∧
    (s.busy = false → 2 ≤ s.rx.len.toNat → o + 2 * count.toNat ≤ s.rx.len.toNat - 2 →
      ∃ ws : List U16, ws.length = count.toNat ∧
        (∀ k, k < count.toNat → ws.getD k 0 = s.rx.buf.getD (o + 2 * k) 0 ++ s.rx.buf.getD (o + 2 * k + 1) 0) ∧
        Returns s (.decRegs start count) (.words ws)) ∧
    (s.busy = false → s.rx.len.toNat < 2 ∨ s.rx.len.toNat - 2 < o + 2 * count.toNat →
      Refuses s (.decRegs start count) s.opnd 7)

/-- 42_frame_decoder.md R184: `DEC_COILS`, raw bytes. -/
def Obligations.CoilAccessor : Prop :=
  ∀ (s : State) (count : U16),
    commandCode (.decCoils count) = some 0x0D ∧
    (s.busy = false → 2 ≤ s.rx.len.toNat → 3 + count.toNat ≤ s.rx.len.toNat - 2 →
      Returns s (.decCoils count) (.bytes ((s.rx.buf.drop 3).take count.toNat))) ∧
    (s.busy = false → s.rx.len.toNat < 2 ∨ s.rx.len.toNat - 2 < 3 + count.toNat →
      Refuses s (.decCoils count) s.opnd 7)

/-- 42_frame_decoder.md R185: `DEC_CRCOK` and the function `crc_ok`; the command returns the same value as `RX_CRC_OK`. -/
def Obligations.ChecksumAccessor : Prop :=
  commandCode .decCrcok = some 0x0E ∧
  (∀ r : List Byte, crcOk r = true ↔ 2 ≤ r.length ∧
    crc16 (r.take (r.length - 2)) = r.getD (r.length - 1) 0 ++ r.getD (r.length - 2) 0) ∧
  (∀ s : State, s.busy = false → Returns s .decCrcok (.bool (crcOk (s.rx.buf.take s.rx.len.toNat)))) ∧
  (∀ s : State, Inv s → s.busy = false → Returns s .decCrcok (.bool s.rx.crcOk))

/-! ### The Arbiter -/

/-- 43_rtu_arbiter.md R210, R211: the two reads, their whole exchange with any answer, and their refusals. -/
def Obligations.ReadCommands : Prop :=
  ∀ (s : State) (a : Byte) (reg count : U16), s.busy = false → inSession s.session.fwState = false →
    let o := fun fc : Byte => { s.opnd with devAddr := a, func := fc, regAddr := reg, value1 := count }
    let registers := Instr.readHoldingRegisters a reg count
    let coils := Instr.readCoils a reg count
    commandCode registers = some 0x10 ∧ commandCode coils = some 0x11 ∧
    (248 ≤ a.toNat → Refuses s registers (o 0x03) 2 ∧ Refuses s coils (o 0x01) 2) ∧
    (a.toNat ≤ 247 →
      (2 * count.toNat + 5 ≤ 260 →
        Exchanges s registers (o 0x03) ([a, 0x03] ++ be16 reg ++ be16 count) (2 * count.toNat + 5)) ∧
      (260 < 2 * count.toNat + 5 → Refuses s registers (o 0x03) 6) ∧
      (count.toNat + 5 ≤ 260 →
        Exchanges s coils (o 0x01) ([a, 0x01] ++ be16 reg ++ be16 count) (count.toNat + 5)) ∧
      (260 < count.toNat + 5 → Refuses s coils (o 0x01) 6))

/-- 43_rtu_arbiter.md R212, R213: the two single writes, their whole exchange with any answer, and their refusal. -/
def Obligations.SingleWriteCommands : Prop :=
  ∀ (s : State) (a : Byte) (reg value : U16) (st : Bool), s.busy = false → inSession s.session.fwState = false →
    let register := Instr.writeSingleRegister a reg value
    let coil := Instr.writeSingleCoil a reg st
    let o1 := { s.opnd with devAddr := a, func := 0x06, regAddr := reg, value1 := value }
    let o2 := { s.opnd with devAddr := a, func := 0x05, regAddr := reg, value1 := if st then 1 else 0 }
    commandCode register = some 0x12 ∧ commandCode coil = some 0x13 ∧
    (248 ≤ a.toNat → Refuses s register o1 2 ∧ Refuses s coil o2 2) ∧
    (a.toNat ≤ 247 →
      Exchanges s register o1 ([a, 0x06] ++ be16 reg ++ be16 value) 8 ∧
      Exchanges s coil o2 ([a, 0x05] ++ be16 reg ++ (if st then [0xFF, 0x00] else [0x00, 0x00])) 8)

/-- 43_rtu_arbiter.md R214, R215: the two multiple writes, their whole exchange with any answer, and their refusals, an operand too long
to latch included. -/
def Obligations.MultipleWriteCommands : Prop :=
  ∀ (s : State) (a : Byte) (reg count : U16), s.busy = false → inSession s.session.fwState = false →
    (∀ data : List Byte,
      let i := Instr.writeMultipleRegisters a reg count data
      let short := { s.opnd with devAddr := a, func := 0x10, regAddr := reg, value1 := count }
      let o := if data.length ≤ 254 then
        { short with wData := inFront data s.opnd.wData, wLen := BitVec.ofNat 8 data.length } else short
      commandCode i = some 0x14 ∧
      (248 ≤ a.toNat → Refuses s i o 2) ∧
      (a.toNat ≤ 247 → 127 < count.toNat → Refuses s i o 3) ∧
      (a.toNat ≤ 247 → count.toNat ≤ 127 → data.length ≠ 2 * count.toNat → Refuses s i o 4) ∧
      (a.toNat ≤ 247 → count.toNat ≤ 127 → data.length = 2 * count.toNat →
        Exchanges s i o
          ([a, 0x10] ++ be16 reg ++ [0x00, lo count, BitVec.ofNat 8 (2 * count.toNat)] ++ data) 8)) ∧
    (∀ coils : List Bool,
      let i := Instr.writeMultipleCoils a reg count coils
      let short := { s.opnd with devAddr := a, func := 0x0F, regAddr := reg, value1 := count }
      let o := if coils.length ≤ 2039 then
        { short with wBits := coils ++ s.opnd.wBits.drop coils.length, wbLen := BitVec.ofNat 16 coils.length } else short
      commandCode i = some 0x15 ∧
      (248 ≤ a.toNat → Refuses s i o 2) ∧
      (a.toNat ≤ 247 → 2039 < count.toNat → Refuses s i o 3) ∧
      (a.toNat ≤ 247 → count.toNat ≤ 2039 → coils.length ≠ count.toNat → Refuses s i o 4) ∧
      (a.toNat ≤ 247 → count.toNat ≤ 2039 → coils.length = count.toNat →
        ∃ p : List Byte, p.length = count.toNat / 8 + 1 ∧
          (∀ j k, j < p.length → k < 8 → (p.getD j 0).getLsbD k = coils.getD (8 * j + k) false) ∧
          Exchanges s i o
            ([a, 0x0F] ++ be16 reg ++ be16 count ++ [BitVec.ofNat 8 (count.toNat / 8 + 1)] ++ p) 8))

/-- 43_rtu_arbiter.md R216: an Arbiter command given when idle either begins its exchange, or is refused: then only the operand
registers, `STATUS`, `ERRINFO` (and `ret`) change, nothing is sent and no delay runs. -/
def Obligations.RefusedCommandTouchesNothing : Prop :=
  ∀ (s t : State) (a : Byte) (reg v1 : U16) (st : Bool) (data : List Byte) (coils : List Bool),
    ∀ i ∈ [Instr.readHoldingRegisters a reg v1, .readCoils a reg v1, .writeSingleRegister a reg v1,
        .writeSingleCoil a reg st, .writeMultipleRegisters a reg v1 data, .writeMultipleCoils a reg v1 coils],
      s.busy = false → exec i s = .next t →
      (t.busy = true ∧ t.phase = .tx) ∨
      ∃ k ∈ [(2 : Byte), 3, 4, 6], t = { s with
        opnd := t.opnd
        result := { status := .protocolViolation, errInfo := k, ret := .none } }

/-- 60_exceptions.md R282 to R286, R288: the six kinds of an ended exchange partition the answers, and `ERRINFO` is the exception code
of an exception response, else 0. -/
def Obligations.ClassificationPartitionsAnswers : Prop :=
  ∀ (a : Byte) (n : Nat) (r : List Byte),
    let k := (classify a n r).1
    let exc := 2 ≤ r.length ∧ (r.getD 1 0).getLsbD 7 = true
    (k = .noResponse ↔ a = 0) ∧
    (k = .timeout ↔ a ≠ 0 ∧ r.length = 0) ∧
    (k = .shortFrame ↔ a ≠ 0 ∧ 1 ≤ r.length ∧ ((exc ∧ r.length < 5) ∨ (¬ exc ∧ r.length < n))) ∧
    (k = .crcMismatch ↔ a ≠ 0 ∧ crcOk r = false ∧
      ((exc ∧ 5 ≤ r.length) ∨ (¬ exc ∧ 1 ≤ r.length ∧ n ≤ r.length))) ∧
    (k = .exceptionResponse ↔ a ≠ 0 ∧ exc ∧ 5 ≤ r.length ∧ crcOk r = true) ∧
    (k = .ok ↔ a ≠ 0 ∧ ¬ exc ∧ 1 ≤ r.length ∧ n ≤ r.length ∧ crcOk r = true) ∧
    k ≠ .protocolViolation ∧
    (classify a n r).2 = if k = .exceptionResponse then r.getD 2 0 else 0

/-- 43_rtu_arbiter.md R202 to R205, R207: the moves of the Core that carry an exchange on. When the Transport has taken the whole
request, a broadcast goes to the inter-frame delay with an empty result, and any other request opens its window; the window
closes with the bytes that were collected, when `n` of them are or the countdown has run out; an Arbiter command ends after the
inter-frame delay, with the classification and the raw bytes. -/
def Obligations.ExchangeStepByStep : Prop :=
  ∀ (s : State) (rest : List Move), s.env.moves = .core :: rest →
    (s.phase = .tx → s.tx.bytes.length ≤ s.hidden.txPos → s.opnd.devAddr = 0 →
      step s = .next { withMoves s rest with
        phase := .gap
        rx := { buf := s.rx.buf, len := 0, exp := 0, crcOk := false, exc := false }
        hidden := { s.hidden with gapLeft := s.cfg.tIfgMs.toNat } }) ∧
    (s.phase = .tx → s.tx.bytes.length ≤ s.hidden.txPos → s.opnd.devAddr ≠ 0 →
      step s = .next { withMoves s rest with
        phase := .rxWait
        rx := { s.rx with
          exp := BitVec.ofNat 16 (if s.opnd.func = 0x03 then 2 * s.opnd.value1.toNat + 5
            else if s.opnd.func = 0x01 then s.opnd.value1.toNat + 5 else 8) }
        hidden := { s.hidden with
          rxAcc := []
          windowLeft := if inSession s.session.fwState then s.cfg.fwTRespMs.toNat else s.cfg.tRespMs.toNat } }) ∧
    (s.phase = .rxWait → s.rx.exp.toNat ≤ s.hidden.rxAcc.length ∨ s.hidden.windowLeft = 0 →
      step s = .next { withMoves s rest with
        phase := .gap
        rx := bytesIn s s.hidden.rxAcc s.rx.exp
        hidden := { s.hidden with gapLeft := s.cfg.tIfgMs.toNat } }) ∧
    (s.phase = .gap → s.hidden.gapLeft = 0 → inSession s.session.fwState = false →
      step s = .next { withMoves s rest with
        busy := false
        phase := .idle
        result := {
          status := (classify s.opnd.devAddr s.rx.exp.toNat s.rx.bytes).1
          errInfo := (classify s.opnd.devAddr s.rx.exp.toNat s.rx.bytes).2
          ret := .bytes s.rx.bytes } })

/-- 43_rtu_arbiter.md R201: the only changes of `PHASE`, reset apart; a command that does not begin an exchange leaves it
`IDLE`. -/
def Obligations.PhaseSequence : Prop :=
  (∀ s t : State, Inv s → step s = .next t → t.phase ≠ s.phase →
    ResetNext s ∨
    (s.phase = .idle ∧ t.phase = .tx) ∨
    (s.phase = .tx ∧ t.phase = .rxWait ∧ s.opnd.devAddr ≠ 0) ∨
    (s.phase = .tx ∧ t.phase = .gap ∧ s.opnd.devAddr = 0) ∨
    (s.phase = .rxWait ∧ t.phase = .gap) ∨
    (s.phase = .gap ∧ t.phase = .idle)) ∧
  (∀ (i : Instr) (s t : State), Inv s → exec i s = .next t → t.busy = false → t.phase = .idle)

/-- 60_exceptions.md R298, 93_implementation_defined.md U6: while the Transport has not taken the whole request, no moves but a
reset take the command out of `PHASE = TX`. -/
def Obligations.TransmitWaitsForTransport : Prop :=
  ∀ (s t : State) (ms : List Move), Inv s → s.phase = .tx → .resetInput ∉ ms →
    s.hidden.txPos + takenAtMost ms < s.tx.bytes.length → driven s ms = .next t →
    t.phase = .tx ∧ t.busy = true ∧ t.tx = s.tx

/-- 43_rtu_arbiter.md R205: a window stays open, collecting every byte that is delivered, while fewer than `n` bytes came and its
countdown runs; nothing ends it early. -/
def Obligations.WindowStaysOpen : Prop :=
  ∀ (s t : State) (ms : List Move), Inv s → s.phase = .rxWait → .resetInput ∉ ms →
    elapsedMs ms < s.hidden.windowLeft → s.hidden.rxAcc.length + (delivered ms).length < s.rx.exp.toNat →
    driven s ms = .next t →
    t.phase = .rxWait ∧ t.busy = true ∧ t.hidden.rxAcc = s.hidden.rxAcc ++ delivered ms

/-- 43_rtu_arbiter.md R206, 20_memory.md R74: the inter-frame delay starts at `T_IFG_MS` whenever `PHASE` becomes `GAP`, and until that
time has passed `BUSY` is 1 and `PHASE` is `GAP`. -/
def Obligations.InterFrameDelayIsServed : Prop :=
  (∀ s t : State, step s = .next t → s.phase ≠ .gap → t.phase = .gap → t.hidden.gapLeft = s.cfg.tIfgMs.toNat) ∧
  (∀ (s t : State) (ms : List Move), Inv s → s.phase = .gap → .resetInput ∉ ms →
    elapsedMs ms < s.hidden.gapLeft → driven s ms = .next t → t.phase = .gap ∧ t.busy = true)

/-- 20_memory.md R72, 43_rtu_arbiter.md R203: the wire only grows, by the next bytes of the request in `TXBUF`, in order, while
`PHASE` is `TX`. -/
def Obligations.WireCarriesRequestsInOrder : Prop :=
  ∀ s t : State, step s = .next t →
    t.env.wire = s.env.wire ∨
    (s.phase = .tx ∧ t.phase = .tx ∧ ∃ k rest, s.env.moves = .takes k :: rest ∧
      t.env.wire = s.env.wire ++ (s.tx.bytes.drop s.hidden.txPos).take k ∧
      t.hidden.txPos = s.hidden.txPos + ((s.tx.bytes.drop s.hidden.txPos).take k).length ∧ t.tx = s.tx)

/-- 30_encoding.md R111: while `BUSY` is 1 no command but `REG_READ` and `BUF_READ` does anything, and those write nothing but the
returned value. (That a command not accepted leaves the state as it is, is the model's reading, log entry 3.) -/
def Obligations.BusyPortAcceptsOnlyReads : Prop :=
  ∀ (i : Instr) (s : State), s.busy = true →
    (isRead i = false → exec i s = .next s) ∧
    (isRead i = true → ∃ r, exec i s = .next { s with result := { s.result with ret := r } })

/-- 60_exceptions.md R303: an idle Core does nothing, whatever Transport and Time do: everything stays. -/
def Obligations.IdleCoreDoesNothing : Prop :=
  ∀ (s : State) (m : Move) (rest : List Move), s.busy = false → s.phase = .idle →
    s.env.moves = m :: rest → (∀ p, m ≠ .host p) → m ≠ .resetInput → step s = .next (withMoves s rest)

/-! ### Host access -/

/-- 45_host_access.md R260, 10_state.md R52: `REG_READ`, the value of every register of the table and no value for any other number,
at any time. -/
def Obligations.RegReadTable : Prop :=
  ∀ (s : State) (number : Byte),
    commandCode (.regRead number) = some 0x31 ∧
    (∀ v, (number, v) ∈ registerTable s →
      exec (.regRead number) s = .next { s with result := { s.result with ret := .reg (BitVec.ofNat 32 v) } }) ∧
    (number ∉ (registerTable s).map Prod.fst →
      exec (.regRead number) s = .next { s with result := { s.result with ret := .refused } })

/-- 45_host_access.md R261: `BUF_READ`, the element below the buffer's current length and no value elsewhere, at any time. -/
def Obligations.BufReadTable : Prop :=
  ∀ (s : State) (id : Byte) (offset : U16), BuffersInv s →
    let n := offset.toNat
    let returns := fun r : Ret => exec (.bufRead id offset) s = .next { s with result := { s.result with ret := r } }
    commandCode (.bufRead id offset) = some 0x32 ∧
    (id = 0 → returns (if n < s.opnd.wLen.toNat then .byte (s.opnd.wData.getD n 0) else .refused)) ∧
    (id = 1 → returns (if n < s.opnd.wbLen.toNat then
      .byte (if s.opnd.wBits.getD n false then 1 else 0) else .refused)) ∧
    (id = 2 → returns (if n < s.tx.len.toNat then .byte (s.tx.buf.getD n 0) else .refused)) ∧
    (id = 3 → returns (if n < s.rx.len.toNat then .byte (s.rx.buf.getD n 0) else .refused)) ∧
    (id = 4 → returns (if n < s.session.initRespLen.toNat then .byte (s.session.initResp.getD n 0) else .refused)) ∧
    (id = 5 → returns (if n < 128 then .byte (s.session.blkBuf.getD n 0) else .refused)) ∧
    (5 < id.toNat → returns .refused)

/-- 45_host_access.md R262: `CFG_WRITE`, the eight registers with their legal values; any other write is refused with cause 8. -/
def Obligations.CfgWriteCommand : Prop :=
  ∀ (s : State) (number : Byte) (v : U16), s.busy = false →
    let writes := fun c : Settings => exec (.cfgWrite number v) s =
      .next { s with cfg := c, result := { status := .ok, errInfo := 0, ret := .none } }
    commandCode (.cfgWrite number v) = some 0x30 ∧
    (number = 0x20 → 1 ≤ v.toNat → writes { s.cfg with tIfgMs := v }) ∧
    (number = 0x21 → writes { s.cfg with tRespMs := v }) ∧
    (number = 0x22 → writes { s.cfg with fwTRespMs := v }) ∧
    (number = 0x23 → writes { s.cfg with regUpdInit := v }) ∧
    (number = 0x24 → writes { s.cfg with regUpdRun := v }) ∧
    (number = 0x25 → writes { s.cfg with regBlkUpload := v }) ∧
    (number = 0x26 → v.toNat ≤ 247 → writes { s.cfg with fwDevAddr := BitVec.ofNat 8 v.toNat }) ∧
    (number = 0x27 → v = 0 → writes { s.cfg with fwValidateAcks := false }) ∧
    (number = 0x27 → v = 1 → writes { s.cfg with fwValidateAcks := true }) ∧
    ((number = 0x20 ∧ v = 0) ∨ (number = 0x26 ∧ 248 ≤ v.toNat) ∨ (number = 0x27 ∧ 2 ≤ v.toNat) ∨
        number.toNat < 0x20 ∨ 0x27 < number.toNat →
      Refuses s (.cfgWrite number v) s.opnd 8)

/-- 10_state.md section 6: the configuration registers are written by `CFG_WRITE` (and reset) and by nothing else. -/
def Obligations.OnlyCfgWriteChangesSettings : Prop :=
  ∀ s t : State, step s = .next t → t.cfg ≠ s.cfg →
    ResetNext s ∨ (s.busy = false ∧ ∃ number v, Presents s (.cfgWrite number v))

/-! ### The Firmware Sequencer -/

/-- 44_firmware_sequencer.md R240, R244: an accepted `FW_START` sets the session registers, takes the image and begins the exchange of
Initialize; a refused one changes no register but `STATUS` and `ERRINFO` (and returns nothing), in the order of the checks:
state (9), address (2), image size (10). -/
def Obligations.FwStartCommand : Prop :=
  ∀ (s : State) (image : List Byte), s.busy = false →
    commandCode (.fwStart image) = some 0x20 ∧
    (s.session.fwState = .idle → s.cfg.fwDevAddr.toNat ≤ 247 → image.length ≤ Config.imgMax.toNat →
      exec (.fwStart image) s = .next { s with
        busy := true
        phase := .tx
        opnd := { s.opnd with
          devAddr := s.cfg.fwDevAddr, func := 0x06, regAddr := s.cfg.regUpdInit, value1 := 0xF5F5 }
        tx := frameIn s ([s.cfg.fwDevAddr, 0x06] ++ be16 s.cfg.regUpdInit ++ [0xF5, 0xF5])
        session := { s.session with
          fwState := .initializing
          imgSize := BitVec.ofNat 32 image.length
          blkCnt := BitVec.ofNat 32 ((image.length + 127) / 128)
          blkIdx := 0
          bytesDone := 0
          commitElapsedMs := 0
          initRespLen := 0 }
        hidden := .reset
        mem := Memory.load image }) ∧
    (s.session.fwState ≠ .idle → Refuses s (.fwStart image) s.opnd 9) ∧
    (s.session.fwState = .idle → 248 ≤ s.cfg.fwDevAddr.toNat → Refuses s (.fwStart image) s.opnd 2) ∧
    (s.session.fwState = .idle → s.cfg.fwDevAddr.toNat ≤ 247 → Config.imgMax.toNat < image.length →
      Refuses s (.fwStart image) s.opnd 10)

/-- 44_firmware_sequencer.md R241: the transition table; no other transition exists. -/
def Obligations.FwStateTransitions : Prop :=
  ∀ s t : State, Inv s → step s = .next t → t.session.fwState ≠ s.session.fwState →
    let r := s.rx.bytes
    let v := s.cfg.fwValidateAcks
    let is := fun f g : FwState => s.session.fwState = f ∧ t.session.fwState = g
    (ResetNext s ∧ t.session.fwState = .idle) ∨
    (is .idle .initializing ∧ ∃ image, Presents s (.fwStart image)) ∨
    (is .initializing .transferring ∧ ExchangeEnds s ∧ (v = true → GoodAck r)) ∨
    (is .initializing .failed ∧ ExchangeEnds s ∧ v = true ∧ ¬ GoodAck r) ∨
    (is .transferring .committing ∧ s.phase = .idle ∧ s.session.blkIdx = s.session.blkCnt) ∨
    (is .transferring .failed ∧ ExchangeEnds s ∧ ¬ GoodBlockAck v r) ∨
    (is .committing .done ∧ ExchangeEnds s ∧ (v = true → GoodAck r)) ∨
    (is .committing .failed ∧ ExchangeEnds s ∧ v = true ∧ ¬ GoodAck r)

/-- 44_firmware_sequencer.md R247, R248: between exchanges in `Transferring` the Core fetches block `BLK_IDX` of the image, pads it with
0xFF, and begins its exchange: 64 registers to `REG_BLK_UPLOAD`. -/
def Obligations.BlockIsFetchedAndSent : Prop :=
  ∀ (s : State) (image : List Byte) (rest : List Move),
    let k := s.session.blkIdx.toNat
    s.busy = true → s.phase = .idle → s.session.fwState = .transferring → s.mem = Memory.load image →
    s.session.imgSize.toNat = image.length → s.session.blkCnt.toNat = (image.length + 127) / 128 →
    k < s.session.blkCnt.toNat → s.env.moves = .core :: rest →
    step s = .next { withMoves s rest with
      phase := .tx
      session := { s.session with blkBuf := paddedBlock image k }
      opnd := { s.opnd with
        devAddr := s.cfg.fwDevAddr, func := 0x10, regAddr := s.cfg.regBlkUpload, value1 := 64
        wData := inFront (paddedBlock image k) s.opnd.wData, wLen := 128 }
      tx := frameIn s ([s.cfg.fwDevAddr, 0x10] ++ be16 s.cfg.regBlkUpload ++ [0x00, 0x40, 0x80] ++
        paddedBlock image k)
      hidden := .reset }

/-- 44_firmware_sequencer.md R244: the end of Initialize: the raw response is recorded, and the session goes on or fails. (That the end
of the exchange and what follows are one step is the model's choice, log entry 11.) -/
def Obligations.InitializeEnds : Prop :=
  ∀ s : State, ∀ rest, ExchangeEnds s → s.env.moves = .core :: rest → s.session.fwState = .initializing →
    let r := s.rx.bytes
    let c := classify s.opnd.devAddr s.rx.exp.toNat r
    let recorded := { s.session with initResp := inFront r s.session.initResp, initRespLen := BitVec.ofNat 4 r.length }
    (s.cfg.fwValidateAcks = false ∨ GoodAck r → step s = .next { withMoves s rest with
      phase := .idle
      result := { s.result with status := c.1, errInfo := c.2 }
      session := { recorded with fwState := .transferring } }) ∧
    (s.cfg.fwValidateAcks = true → ¬ GoodAck r → step s = .next { withMoves s rest with
      busy := false
      phase := .idle
      result := { status := c.1, errInfo := c.2, ret := .fwState .failed }
      session := { recorded with fwState := .failed } })

/-- 44_firmware_sequencer.md R247, R249 to R251: the end of a block's exchange: the block is counted, image bytes only, or the session
fails and the command ends. (That the end of the exchange, `BYTES_DONE` and `BLK_IDX` change in one step is the model's choice,
log entry 11.) -/
def Obligations.BlockEnds : Prop :=
  ∀ s : State, ∀ rest, ExchangeEnds s → s.env.moves = .core :: rest → s.session.fwState = .transferring →
    let r := s.rx.bytes
    let c := classify s.opnd.devAddr s.rx.exp.toNat r
    (GoodBlockAck s.cfg.fwValidateAcks r → step s = .next { withMoves s rest with
      phase := .idle
      result := { s.result with status := c.1, errInfo := c.2 }
      session := { s.session with
        bytesDone := s.session.bytesDone +
          BitVec.ofNat 32 (min 128 (s.session.imgSize.toNat - 128 * s.session.blkIdx.toNat))
        blkIdx := s.session.blkIdx + 1 } }) ∧
    (¬ GoodBlockAck s.cfg.fwValidateAcks r → step s = .next { withMoves s rest with
      busy := false
      phase := .idle
      result := { status := c.1, errInfo := c.2, ret := .fwState .failed }
      session := { s.session with fwState := .failed } })

/-- 44_firmware_sequencer.md R254: between Transfer and Commit, the commit frame, and the end of Commit; `COMMIT_ELAPSED_MS` is a free
value `e`, and `d` the model's count of free values (log entry 7). (That the end of the exchange and what follows are one step is
the model's choice, log entry 11.) -/
def Obligations.CommitPhase : Prop :=
  ∀ s : State, ∀ rest, s.env.moves = .core :: rest →
    let r := s.rx.bytes
    let c := classify s.opnd.devAddr s.rx.exp.toNat r
    (s.busy = true → s.phase = .idle → s.session.fwState = .transferring → s.session.blkIdx = s.session.blkCnt →
      step s = .next { withMoves s rest with session := { s.session with fwState := .committing } }) ∧
    (s.busy = true → s.phase = .idle → s.session.fwState = .committing →
      step s = .next { withMoves s rest with
        phase := .tx
        opnd := { s.opnd with
          devAddr := s.cfg.fwDevAddr, func := 0x06, regAddr := s.cfg.regUpdRun, value1 := 0xF5F5 }
        tx := frameIn s ([s.cfg.fwDevAddr, 0x06] ++ be16 s.cfg.regUpdRun ++ [0xF5, 0xF5])
        hidden := .reset }) ∧
    (ExchangeEnds s → s.session.fwState = .committing → ∃ (e : U32) (d : Nat), ∀ f : FwState,
      (f = .done ∧ (s.cfg.fwValidateAcks = true → GoodAck r)) ∨
        (f = .failed ∧ s.cfg.fwValidateAcks = true ∧ ¬ GoodAck r) →
      step s = .next { withMoves s rest with
        busy := false
        phase := .idle
        result := { status := c.1, errInfo := c.2, ret := .fwState f }
        session := { s.session with fwState := f, commitElapsedMs := e }
        env := { s.env with moves := rest, draws := d } })

/-- 44_firmware_sequencer.md R255: `Done` and `Failed` are final, reset apart: no step changes any session register. -/
def Obligations.FinalStatesAreAbsorbing : Prop :=
  ∀ s t : State, s.session.fwState = .done ∨ s.session.fwState = .failed → step s = .next t →
    ResetNext s ∨ t.session = s.session

/-- 44_firmware_sequencer.md R246: the block count, in its two forms, and the padding, which only the last block has. -/
def Obligations.BlockCountAndPadding : Prop :=
  ∀ n : Nat,
    blockCount n = (n + 127) / 128 ∧
    blockCount n = n / 128 + (if n % 128 = 0 then 0 else 1) ∧
    128 * blockCount n - n = (if n % 128 = 0 then 0 else 128 - n % 128) ∧
    ∀ k, k + 1 < blockCount n → blockBytesIn n k = 128

/-- 44_firmware_sequencer.md R249: how `BLK_IDX` moves: to 0 by `FW_START`, by 1 when a block's response is accepted, never otherwise,
and never beyond `BLK_CNT`. -/
def Obligations.BlkIdxMoves : Prop :=
  ∀ s t : State, Inv s → step s = .next t →
    t.session.blkIdx.toNat ≤ t.session.blkCnt.toNat ∧
    (ResetNext s ∨
     t.session.blkIdx = s.session.blkIdx ∨
     (t.session.blkIdx.toNat = s.session.blkIdx.toNat + 1 ∧ s.session.fwState = .transferring ∧ ExchangeEnds s ∧
       GoodBlockAck s.cfg.fwValidateAcks s.rx.bytes) ∨
     (t.session.blkIdx = 0 ∧ ∃ image, Presents s (.fwStart image)))

/-- 44_firmware_sequencer.md R242, R251, 20_memory.md R76: a session to a device that acknowledges every frame puts exactly the initialize
frame, the frames of the blocks in image order and the commit frame on the wire, and ends in `Done` with every image byte counted. -/
def Obligations.SessionSendsEveryFrame : Prop :=
  ∀ (s : State) (image initAck commitAck : List Byte) (acks : Nat → List Byte),
    s.busy = false → s.session.fwState = .idle → s.cfg.fwDevAddr ≠ 0 → s.cfg.fwDevAddr.toNat ≤ 247 →
    image.length ≤ Config.imgMax.toNat → GoodAck initAck → GoodAck commitAck → (∀ k, GoodAck (acks k)) →
    ∃ t u, exec (.fwStart image) s = .next t ∧
      driven t (sessionMoves t image.length initAck acks commitAck) = .next u ∧
      u.env.wire = s.env.wire ++ sessionFrames s.cfg image ∧
      u.busy = false ∧ u.phase = .idle ∧ u.session.fwState = .done ∧
      u.result = {
        status := (classify s.cfg.fwDevAddr 8 commitAck).1
        errInfo := (classify s.cfg.fwDevAddr 8 commitAck).2
        ret := .fwState .done } ∧
      u.session.blkIdx = u.session.blkCnt ∧ u.session.blkCnt.toNat = (image.length + 127) / 128 ∧
      u.session.bytesDone.toNat = image.length ∧ u.session.initBytes = initAck ∧ u.rx.bytes = commitAck ∧
      u.mem = Memory.load image

/-- 44_firmware_sequencer.md R256: a session to the broadcast address, with the acknowledgements validated, sends the initialize frame and
fails. -/
def Obligations.BroadcastSessionFails : Prop :=
  ∀ (s : State) (image : List Byte),
    s.busy = false → s.session.fwState = .idle → s.cfg.fwDevAddr = 0 → s.cfg.fwValidateAcks = true →
    image.length ≤ Config.imgMax.toNat →
    ∃ t u, exec (.fwStart image) s = .next t ∧ driven t (broadcastMoves t) = .next u ∧
      u.env.wire = s.env.wire ++ withCrc (magicBody s.cfg s.cfg.regUpdInit) ∧
      u.busy = false ∧ u.session.fwState = .failed ∧
      u.result = { status := .noResponse, errInfo := 0, ret := .fwState .failed } ∧ u.session.initRespLen = 0

/-- 20_memory.md R68, R76: no step writes the image memory; only an accepted `FW_START` brings a new image. In particular every
other step leaves every byte as it reads; that the reset input and `SOFT_RESET` do so is the model's choice, log entry 4. -/
def Obligations.ImageMemoryIsNeverWritten : Prop :=
  ∀ s t : State, step s = .next t →
    (∀ addr, Memory.read t.mem addr = Memory.read s.mem addr) ∨
    ∃ image, Presents s (.fwStart image) ∧ s.session.fwState = .idle ∧
      ∀ addr, Memory.read t.mem addr = image[addr]?
end

