-- ==== Sys2Proof/Laws/Codec.lean ====
section
/-!
SUPPORT. The small laws of the byte-order helpers, the coil packing and the request bodies.
-/
namespace Sys2Proof

@[simp] theorem wordOf_hi_lo (v : U16) : wordOf (hi v) (lo v) = v := by
  apply BitVec.eq_of_getLsbD_eq
  intro i hi'
  simp only [wordOf, hi, lo, BitVec.getLsbD_append, BitVec.getLsbD_extractLsb']
  by_cases h : i < 8
  · simp [h]
  · have e : 8 + (i - 8) = i := by omega
    have e' : i - 8 < 8 := by omega
    simp [h, e, e']

@[simp] theorem hi_wordOf (a b : Byte) : hi (wordOf a b) = a := by
  apply BitVec.eq_of_getLsbD_eq
  intro i hi'
  have e : ¬ 8 + i < 8 := by omega
  have e' : 8 + i - 8 = i := by omega
  simp only [wordOf, hi, BitVec.getLsbD_append, BitVec.getLsbD_extractLsb', hi', e, e']
  simp

@[simp] theorem lo_wordOf (a b : Byte) : lo (wordOf a b) = b := by
  apply BitVec.eq_of_getLsbD_eq
  intro i hi'
  simp only [wordOf, lo, BitVec.getLsbD_append, BitVec.getLsbD_extractLsb', Nat.zero_add, hi']
  simp

@[simp] theorem length_be16 (v : U16) : (be16 v).length = 2 := rfl
@[simp] theorem length_le16 (v : U16) : (le16 v).length = 2 := rfl

@[simp] theorem length_packCoils (m : Nat) (coils : List Bool) : (packCoils m coils).length = m := by
  induction m generalizing coils with
  | zero => rfl
  | succ m ih => simp [packCoils, ih]

@[simp] theorem length_unpackCoils (n : Nat) (bs : List Byte) : (unpackCoils n bs).length = n := by
  simp [unpackCoils]

@[simp] theorem length_bigEndian (len v : Nat) : (bigEndian len v).length = len := by simp [bigEndian]

/-- An integer fits `n` bytes exactly when it needs no more. -/
theorem bytesNeeded_le_iff (v n : Nat) : bytesNeeded v ≤ n ↔ v < 256 ^ n := by
  unfold bytesNeeded
  split
  · next h => subst h; simp
  · next h =>
    rw [show (256 : Nat) ^ n = 2 ^ (8 * n) by rw [Nat.pow_mul], ← Nat.log2_lt h]
    omega

/-- The length of a body whose function code has a shape (R92 without the checksum). -/
theorem length_requestBody {fc : Byte} {c : FuncClass} (h : funcClass fc = some c) (a : Byte) (reg v1 : U16)
    (data : List Byte) (coils : List Bool) :
    (requestBody a fc reg v1 data coils).length = 4 + (payload c v1 data coils).length := by
  simp [requestBody, h]; omega

theorem length_payload (c : FuncClass) (v1 : U16) (data : List Byte) (coils : List Bool) :
    (payload c v1 data coils).length = match c with
      | .readCount => 2
      | .singleCoil => 2
      | .singleRegister => 2
      | .multipleCoils => 3 + coilBytes v1
      | .multipleRegisters => 3 + data.length
      | .exceptionClass => 1 := by
  cases c <;> simp [payload] <;> omega

/-- Bit `i` of a packed byte is coil `i` (R107). -/
theorem packByte_getLsbD (bs : List Bool) (h : bs.length ≤ 8) (i : Nat) (hi : i < 8) :
    (packByte bs).getLsbD i = bs.getD i false := by
  induction bs generalizing i with
  | nil => simp [packByte]
  | cons b bs ih =>
    simp only [packByte]
    cases i with
    | zero => cases b <;> simp
    | succ i =>
      have := ih (by simp at h; omega) i (by omega)
      simp only [List.getD_eq_getElem?_getD, List.getElem?_cons_succ] at this ⊢
      rw [← this]
      cases b <;> simp [hi, show i < 8 by omega]

/-- Byte `j` of packed coils holds the coils from `8j` on (R107). -/
theorem packCoils_getD (m : Nat) (coils : List Bool) (j : Nat) (hj : j < m) :
    (packCoils m coils).getD j 0 = packByte ((coils.drop (8 * j)).take 8) := by
  induction m generalizing coils j with
  | zero => omega
  | succ m ih =>
    cases j with
    | zero => rfl
    | succ j =>
      have e : 8 + 8 * j = 8 * (j + 1) := by omega
      have := ih (coils.drop 8) j (by omega)
      rw [List.drop_drop, e] at this
      exact this

end Sys2Proof
end

