-- ==== Sys2Proof/Laws/Memory.lean ====
section
/-!
SUPPORT. The image memory: every operation keeps the canonical form, and what is loaded is what is read (20_memory.md R66,
R67). The block writes no memory (R68), so loading an image is the only operation that makes one.
-/
namespace Sys2Proof.Machine

@[simp] theorem Memory.reset_wf : Memory.wf State.reset.mem = true := rfl

@[simp] theorem Memory.cells_fst (a : Nat) (bs : List Byte) :
    (Memory.cells a bs).map Prod.fst = List.range' a bs.length := by
  induction bs generalizing a with
  | nil => rfl
  | cons b bs ih => simp [Memory.cells, ih, List.range'_succ]

@[simp] theorem Memory.cells_snd (a : Nat) (bs : List Byte) : (Memory.cells a bs).map Prod.snd = bs := by
  induction bs generalizing a with
  | nil => rfl
  | cons b bs ih => simp [Memory.cells, ih]

theorem Memory.cells_wf (a : Nat) (bs : List Byte) : Memory.wf (Memory.cells a bs) = true := by
  induction bs generalizing a with
  | nil => rfl
  | cons b bs ih =>
    cases bs with
    | nil => rfl
    | cons b' bs => simpa [Memory.cells, Memory.wf] using ih (a + 1)

/-- Loading an image gives a memory in canonical form. -/
theorem Memory.load_wf (image : List Byte) : Memory.wf (Memory.load image) = true := Memory.cells_wf 0 image

@[simp] theorem Memory.load_fst (image : List Byte) :
    (Memory.load image).map Prod.fst = List.range image.length := by
  simp [Memory.load, List.range_eq_range']

theorem Memory.filter_cells (a lo n : Nat) (bs : List Byte) (h : a ≤ lo) :
    ((Memory.cells a bs).filter fun c => decide (lo ≤ c.1) && decide (c.1 < lo + n)).map Prod.snd
      = (bs.drop (lo - a)).take n := by
  induction bs generalizing a lo n with
  | nil => simp [Memory.cells]
  | cons b bs ih =>
    rcases Nat.lt_or_eq_of_le h with hlt | rfl
    · have e : lo - a = (lo - (a + 1)) + 1 := by omega
      simp only [Memory.cells, List.filter_cons, e, List.drop_succ_cons]
      rw [if_neg (by simp; omega)]
      exact ih (a + 1) lo n (by omega)
    · cases n with
      | zero =>
        simp
      | succ n =>
        simp only [Memory.cells, List.filter_cons, Nat.sub_self, List.drop_zero, List.take_succ_cons]
        rw [if_pos (by simp)]
        have key : (Memory.cells (a + 1) bs).filter (fun c => decide (a ≤ c.1) && decide (c.1 < a + (n + 1)))
            = (Memory.cells (a + 1) bs).filter (fun c => decide (a + 1 ≤ c.1) && decide (c.1 < a + 1 + n)) := by
          apply List.filter_congr
          intro c hc
          have hc' : c.1 ∈ (Memory.cells (a + 1) bs).map Prod.fst := List.mem_map_of_mem hc
          rw [Memory.cells_fst, List.mem_range'_1] at hc'
          have e1 : a ≤ c.1 := by omega
          have e2 : (c.1 < a + (n + 1)) = (c.1 < a + 1 + n) := by rw [Nat.add_comm n 1, Nat.add_assoc]
          simp [e1, e2, hc'.1]
        rw [List.map_cons, key, ih (a + 1) (a + 1) n (Nat.le_refl _)]
        simp

/-- `MemRead(addr, n)` of a loaded image is `IMG[addr : addr+n]`, defined exactly when the range is inside (R67). -/
theorem Memory.readRange_load (image : List Byte) (addr n : Nat) :
    Memory.readRange (Memory.load image) addr n
      = if n ≤ image.length - addr then some ((image.drop addr).take n) else none := by
  have h : (((Memory.load image).filter fun c => decide (addr ≤ c.1) && decide (c.1 < addr + n)).map Prod.snd)
      = (image.drop addr).take n := Memory.filter_cells 0 addr n image (Nat.zero_le _)
  simp only [Memory.readRange, h]
  simp only [List.length_take, List.length_drop]
  exact if_congr (by omega) rfl rfl

end Sys2Proof.Machine
end

