-- ==== Sys2Proof/Laws/State.lean ====
section
/-!
SUPPORT. What each named update of the state leaves in each part of the state, so that no later proof unfolds a record
update. Every lemma is true by definition.
-/
namespace Sys2Proof.Machine

variable (s : State)

@[simp] theorem endCommand_crc (k : Kind) (i : Byte) (r : Ret) : (endCommand k i r s).crc = s.crc := rfl
@[simp] theorem endCommand_phase (k : Kind) (i : Byte) (r : Ret) : (endCommand k i r s).phase = s.phase := rfl
@[simp] theorem endCommand_busy (k : Kind) (i : Byte) (r : Ret) : (endCommand k i r s).busy = false := rfl
@[simp] theorem endCommand_opnd (k : Kind) (i : Byte) (r : Ret) : (endCommand k i r s).opnd = s.opnd := rfl
@[simp] theorem endCommand_tx (k : Kind) (i : Byte) (r : Ret) : (endCommand k i r s).tx = s.tx := rfl
@[simp] theorem endCommand_rx (k : Kind) (i : Byte) (r : Ret) : (endCommand k i r s).rx = s.rx := rfl
@[simp] theorem endCommand_result (k : Kind) (i : Byte) (r : Ret) : (endCommand k i r s).result = { status := k, errInfo := i, ret := r } := rfl
@[simp] theorem endCommand_cfg (k : Kind) (i : Byte) (r : Ret) : (endCommand k i r s).cfg = s.cfg := rfl
@[simp] theorem endCommand_session (k : Kind) (i : Byte) (r : Ret) : (endCommand k i r s).session = s.session := rfl
@[simp] theorem endCommand_hidden (k : Kind) (i : Byte) (r : Ret) : (endCommand k i r s).hidden = s.hidden := rfl
@[simp] theorem endCommand_mem (k : Kind) (i : Byte) (r : Ret) : (endCommand k i r s).mem = s.mem := rfl
@[simp] theorem endCommand_env (k : Kind) (i : Byte) (r : Ret) : (endCommand k i r s).env = s.env := rfl

@[simp] theorem raise_crc (c : Byte) : (raise c s).crc = s.crc := rfl
@[simp] theorem raise_phase (c : Byte) : (raise c s).phase = s.phase := rfl
@[simp] theorem raise_busy (c : Byte) : (raise c s).busy = false := rfl
@[simp] theorem raise_opnd (c : Byte) : (raise c s).opnd = s.opnd := rfl
@[simp] theorem raise_tx (c : Byte) : (raise c s).tx = s.tx := rfl
@[simp] theorem raise_rx (c : Byte) : (raise c s).rx = s.rx := rfl
@[simp] theorem raise_result (c : Byte) : (raise c s).result = { status := .protocolViolation, errInfo := c, ret := .none } := rfl
@[simp] theorem raise_cfg (c : Byte) : (raise c s).cfg = s.cfg := rfl
@[simp] theorem raise_session (c : Byte) : (raise c s).session = s.session := rfl
@[simp] theorem raise_hidden (c : Byte) : (raise c s).hidden = s.hidden := rfl
@[simp] theorem raise_mem (c : Byte) : (raise c s).mem = s.mem := rfl
@[simp] theorem raise_env (c : Byte) : (raise c s).env = s.env := rfl

@[simp] theorem endOk_crc (r : Ret) : (endOk r s).crc = s.crc := rfl
@[simp] theorem endOk_phase (r : Ret) : (endOk r s).phase = s.phase := rfl
@[simp] theorem endOk_busy (r : Ret) : (endOk r s).busy = false := rfl
@[simp] theorem endOk_opnd (r : Ret) : (endOk r s).opnd = s.opnd := rfl
@[simp] theorem endOk_tx (r : Ret) : (endOk r s).tx = s.tx := rfl
@[simp] theorem endOk_rx (r : Ret) : (endOk r s).rx = s.rx := rfl
@[simp] theorem endOk_result (r : Ret) : (endOk r s).result = { status := .ok, errInfo := 0, ret := r } := rfl
@[simp] theorem endOk_cfg (r : Ret) : (endOk r s).cfg = s.cfg := rfl
@[simp] theorem endOk_session (r : Ret) : (endOk r s).session = s.session := rfl
@[simp] theorem endOk_hidden (r : Ret) : (endOk r s).hidden = s.hidden := rfl
@[simp] theorem endOk_mem (r : Ret) : (endOk r s).mem = s.mem := rfl
@[simp] theorem endOk_env (r : Ret) : (endOk r s).env = s.env := rfl

@[simp] theorem finish_crc (r : Ret) : (finish r s).crc = s.crc := rfl
@[simp] theorem finish_phase (r : Ret) : (finish r s).phase = s.phase := rfl
@[simp] theorem finish_busy (r : Ret) : (finish r s).busy = false := rfl
@[simp] theorem finish_opnd (r : Ret) : (finish r s).opnd = s.opnd := rfl
@[simp] theorem finish_tx (r : Ret) : (finish r s).tx = s.tx := rfl
@[simp] theorem finish_rx (r : Ret) : (finish r s).rx = s.rx := rfl
@[simp] theorem finish_result (r : Ret) : (finish r s).result = { s.result with ret := r } := rfl
@[simp] theorem finish_cfg (r : Ret) : (finish r s).cfg = s.cfg := rfl
@[simp] theorem finish_session (r : Ret) : (finish r s).session = s.session := rfl
@[simp] theorem finish_hidden (r : Ret) : (finish r s).hidden = s.hidden := rfl
@[simp] theorem finish_mem (r : Ret) : (finish r s).mem = s.mem := rfl
@[simp] theorem finish_env (r : Ret) : (finish r s).env = s.env := rfl

@[simp] theorem returnOnly_crc (r : Ret) : (returnOnly r s).crc = s.crc := rfl
@[simp] theorem returnOnly_phase (r : Ret) : (returnOnly r s).phase = s.phase := rfl
@[simp] theorem returnOnly_busy (r : Ret) : (returnOnly r s).busy = s.busy := rfl
@[simp] theorem returnOnly_opnd (r : Ret) : (returnOnly r s).opnd = s.opnd := rfl
@[simp] theorem returnOnly_tx (r : Ret) : (returnOnly r s).tx = s.tx := rfl
@[simp] theorem returnOnly_rx (r : Ret) : (returnOnly r s).rx = s.rx := rfl
@[simp] theorem returnOnly_result (r : Ret) : (returnOnly r s).result = { s.result with ret := r } := rfl
@[simp] theorem returnOnly_cfg (r : Ret) : (returnOnly r s).cfg = s.cfg := rfl
@[simp] theorem returnOnly_session (r : Ret) : (returnOnly r s).session = s.session := rfl
@[simp] theorem returnOnly_hidden (r : Ret) : (returnOnly r s).hidden = s.hidden := rfl
@[simp] theorem returnOnly_mem (r : Ret) : (returnOnly r s).mem = s.mem := rfl
@[simp] theorem returnOnly_env (r : Ret) : (returnOnly r s).env = s.env := rfl

@[simp] theorem beginExchange_crc : (beginExchange s).crc = s.crc := rfl
@[simp] theorem beginExchange_phase : (beginExchange s).phase = .tx := rfl
@[simp] theorem beginExchange_busy : (beginExchange s).busy = true := rfl
@[simp] theorem beginExchange_opnd : (beginExchange s).opnd = s.opnd := rfl
@[simp] theorem beginExchange_tx : (beginExchange s).tx = s.tx := rfl
@[simp] theorem beginExchange_rx : (beginExchange s).rx = s.rx := rfl
@[simp] theorem beginExchange_result : (beginExchange s).result = s.result := rfl
@[simp] theorem beginExchange_cfg : (beginExchange s).cfg = s.cfg := rfl
@[simp] theorem beginExchange_session : (beginExchange s).session = s.session := rfl
@[simp] theorem beginExchange_hidden : (beginExchange s).hidden = .reset := rfl
@[simp] theorem beginExchange_mem : (beginExchange s).mem = s.mem := rfl
@[simp] theorem beginExchange_env : (beginExchange s).env = s.env := rfl

@[simp] theorem buildFrame_crc : (buildFrame s).crc = s.crc := rfl
@[simp] theorem buildFrame_phase : (buildFrame s).phase = s.phase := rfl
@[simp] theorem buildFrame_busy : (buildFrame s).busy = s.busy := rfl
@[simp] theorem buildFrame_opnd : (buildFrame s).opnd = s.opnd := rfl
@[simp] theorem buildFrame_tx : (buildFrame s).tx = s.tx.store s.opnd.frame := rfl
@[simp] theorem buildFrame_rx : (buildFrame s).rx = s.rx := rfl
@[simp] theorem buildFrame_result : (buildFrame s).result = s.result := rfl
@[simp] theorem buildFrame_cfg : (buildFrame s).cfg = s.cfg := rfl
@[simp] theorem buildFrame_session : (buildFrame s).session = s.session := rfl
@[simp] theorem buildFrame_hidden : (buildFrame s).hidden = s.hidden := rfl
@[simp] theorem buildFrame_mem : (buildFrame s).mem = s.mem := rfl
@[simp] theorem buildFrame_env : (buildFrame s).env = s.env := rfl

@[simp] theorem sendRequest_crc : (sendRequest s).crc = s.crc := rfl
@[simp] theorem sendRequest_phase : (sendRequest s).phase = .tx := rfl
@[simp] theorem sendRequest_busy : (sendRequest s).busy = true := rfl
@[simp] theorem sendRequest_opnd : (sendRequest s).opnd = s.opnd := rfl
@[simp] theorem sendRequest_tx : (sendRequest s).tx = s.tx.store s.opnd.frame := rfl
@[simp] theorem sendRequest_rx : (sendRequest s).rx = s.rx := rfl
@[simp] theorem sendRequest_result : (sendRequest s).result = s.result := rfl
@[simp] theorem sendRequest_cfg : (sendRequest s).cfg = s.cfg := rfl
@[simp] theorem sendRequest_session : (sendRequest s).session = s.session := rfl
@[simp] theorem sendRequest_hidden : (sendRequest s).hidden = .reset := rfl
@[simp] theorem sendRequest_mem : (sendRequest s).mem = s.mem := rfl
@[simp] theorem sendRequest_env : (sendRequest s).env = s.env := rfl

@[simp] theorem closeWindow_crc (r : List Byte) (e : U16) : (closeWindow r e s).crc = s.crc := rfl
@[simp] theorem closeWindow_phase (r : List Byte) (e : U16) : (closeWindow r e s).phase = .gap := rfl
@[simp] theorem closeWindow_busy (r : List Byte) (e : U16) : (closeWindow r e s).busy = s.busy := rfl
@[simp] theorem closeWindow_opnd (r : List Byte) (e : U16) : (closeWindow r e s).opnd = s.opnd := rfl
@[simp] theorem closeWindow_tx (r : List Byte) (e : U16) : (closeWindow r e s).tx = s.tx := rfl
@[simp] theorem closeWindow_rx (r : List Byte) (e : U16) : (closeWindow r e s).rx = s.rx.store r e := rfl
@[simp] theorem closeWindow_result (r : List Byte) (e : U16) : (closeWindow r e s).result = s.result := rfl
@[simp] theorem closeWindow_cfg (r : List Byte) (e : U16) : (closeWindow r e s).cfg = s.cfg := rfl
@[simp] theorem closeWindow_session (r : List Byte) (e : U16) : (closeWindow r e s).session = s.session := rfl
@[simp] theorem closeWindow_hidden (r : List Byte) (e : U16) : (closeWindow r e s).hidden = { s.hidden with gapLeft := s.cfg.tIfgMs.toNat } := rfl
@[simp] theorem closeWindow_mem (r : List Byte) (e : U16) : (closeWindow r e s).mem = s.mem := rfl
@[simp] theorem closeWindow_env (r : List Byte) (e : U16) : (closeWindow r e s).env = s.env := rfl

@[simp] theorem openWindow_crc : (openWindow s).crc = s.crc := rfl
@[simp] theorem openWindow_phase : (openWindow s).phase = .rxWait := rfl
@[simp] theorem openWindow_busy : (openWindow s).busy = s.busy := rfl
@[simp] theorem openWindow_opnd : (openWindow s).opnd = s.opnd := rfl
@[simp] theorem openWindow_tx : (openWindow s).tx = s.tx := rfl
@[simp] theorem openWindow_rx : (openWindow s).rx = { s.rx with exp := BitVec.ofNat 16 (expectedLength s.opnd.func s.opnd.value1) } := rfl
@[simp] theorem openWindow_result : (openWindow s).result = s.result := rfl
@[simp] theorem openWindow_cfg : (openWindow s).cfg = s.cfg := rfl
@[simp] theorem openWindow_session : (openWindow s).session = s.session := rfl
@[simp] theorem openWindow_hidden : (openWindow s).hidden = { s.hidden with rxAcc := [], windowLeft := responseTimeout s } := rfl
@[simp] theorem openWindow_mem : (openWindow s).mem = s.mem := rfl
@[simp] theorem openWindow_env : (openWindow s).env = s.env := rfl

@[simp] theorem endExchange_crc : (endExchange s).crc = s.crc := rfl
@[simp] theorem endExchange_phase : (endExchange s).phase = .idle := rfl
@[simp] theorem endExchange_busy : (endExchange s).busy = s.busy := rfl
@[simp] theorem endExchange_opnd : (endExchange s).opnd = s.opnd := rfl
@[simp] theorem endExchange_tx : (endExchange s).tx = s.tx := rfl
@[simp] theorem endExchange_rx : (endExchange s).rx = s.rx := rfl
@[simp] theorem endExchange_result : (endExchange s).result = { s.result with status := (classify s.opnd.devAddr s.rx.exp.toNat s.rx.bytes).1, errInfo := (classify s.opnd.devAddr s.rx.exp.toNat s.rx.bytes).2 } := rfl
@[simp] theorem endExchange_cfg : (endExchange s).cfg = s.cfg := rfl
@[simp] theorem endExchange_session : (endExchange s).session = s.session := rfl
@[simp] theorem endExchange_hidden : (endExchange s).hidden = s.hidden := rfl
@[simp] theorem endExchange_mem : (endExchange s).mem = s.mem := rfl
@[simp] theorem endExchange_env : (endExchange s).env = s.env := rfl

@[simp] theorem sendMagic_crc (reg : U16) : (sendMagic reg s).crc = s.crc := rfl
@[simp] theorem sendMagic_phase (reg : U16) : (sendMagic reg s).phase = .tx := rfl
@[simp] theorem sendMagic_busy (reg : U16) : (sendMagic reg s).busy = true := rfl
@[simp] theorem sendMagic_opnd (reg : U16) : (sendMagic reg s).opnd = s.opnd.latch s.cfg.fwDevAddr 0x06 reg Config.fwMagic := rfl
@[simp] theorem sendMagic_tx (reg : U16) : (sendMagic reg s).tx = s.tx.store (s.opnd.latch s.cfg.fwDevAddr 0x06 reg Config.fwMagic).frame := rfl
@[simp] theorem sendMagic_rx (reg : U16) : (sendMagic reg s).rx = s.rx := rfl
@[simp] theorem sendMagic_result (reg : U16) : (sendMagic reg s).result = s.result := rfl
@[simp] theorem sendMagic_cfg (reg : U16) : (sendMagic reg s).cfg = s.cfg := rfl
@[simp] theorem sendMagic_session (reg : U16) : (sendMagic reg s).session = s.session := rfl
@[simp] theorem sendMagic_hidden (reg : U16) : (sendMagic reg s).hidden = .reset := rfl
@[simp] theorem sendMagic_mem (reg : U16) : (sendMagic reg s).mem = s.mem := rfl
@[simp] theorem sendMagic_env (reg : U16) : (sendMagic reg s).env = s.env := rfl

@[simp] theorem endSession_crc (f : FwState) : (endSession f s).crc = s.crc := rfl
@[simp] theorem endSession_phase (f : FwState) : (endSession f s).phase = s.phase := rfl
@[simp] theorem endSession_busy (f : FwState) : (endSession f s).busy = false := rfl
@[simp] theorem endSession_opnd (f : FwState) : (endSession f s).opnd = s.opnd := rfl
@[simp] theorem endSession_tx (f : FwState) : (endSession f s).tx = s.tx := rfl
@[simp] theorem endSession_rx (f : FwState) : (endSession f s).rx = s.rx := rfl
@[simp] theorem endSession_result (f : FwState) : (endSession f s).result = { s.result with ret := .fwState f } := rfl
@[simp] theorem endSession_cfg (f : FwState) : (endSession f s).cfg = s.cfg := rfl
@[simp] theorem endSession_session (f : FwState) : (endSession f s).session = { s.session with fwState := f } := rfl
@[simp] theorem endSession_hidden (f : FwState) : (endSession f s).hidden = s.hidden := rfl
@[simp] theorem endSession_mem (f : FwState) : (endSession f s).mem = s.mem := rfl
@[simp] theorem endSession_env (f : FwState) : (endSession f s).env = s.env := rfl

@[simp] theorem resetBlock_crc : (resetBlock s).crc = State.reset.crc := rfl
@[simp] theorem resetBlock_phase : (resetBlock s).phase = State.reset.phase := rfl
@[simp] theorem resetBlock_busy : (resetBlock s).busy = State.reset.busy := rfl
@[simp] theorem resetBlock_opnd : (resetBlock s).opnd = State.reset.opnd := rfl
@[simp] theorem resetBlock_tx : (resetBlock s).tx = State.reset.tx := rfl
@[simp] theorem resetBlock_rx : (resetBlock s).rx = State.reset.rx := rfl
@[simp] theorem resetBlock_result : (resetBlock s).result = State.reset.result := rfl
@[simp] theorem resetBlock_cfg : (resetBlock s).cfg = State.reset.cfg := rfl
@[simp] theorem resetBlock_session : (resetBlock s).session = State.reset.session := rfl
@[simp] theorem resetBlock_hidden : (resetBlock s).hidden = State.reset.hidden := rfl
@[simp] theorem resetBlock_mem : (resetBlock s).mem = s.mem := rfl
@[simp] theorem resetBlock_env : (resetBlock s).env = s.env := rfl

end Sys2Proof.Machine
end

