-- ==== Sys2Proof/Laws/Ops.lean ====
section
/-!
SUPPORT. One lemma for each shared operation that says once what it does, and the inversion of a step: which moves there
are and what each can lead to.
-/
namespace Sys2Proof.Machine

/-! ### Buffers -/

theorem length_writeFront {α : Type} (buf s : List α) (h : s.length ≤ buf.length) :
    (writeFront buf s).length = buf.length := by
  simp [writeFront]; omega

@[simp] theorem take_writeFront {α : Type} (buf s : List α) : (writeFront buf s).take s.length = s := by
  simp [writeFront]

/-- What is stored is what is read, for a frame whose length fits `TXLEN`. -/
theorem TxFrame.store_bytes (f : TxFrame) (frame : List Byte) (h : frame.length < 65536) :
    (f.store frame).bytes = frame := by
  simp [TxFrame.bytes, TxFrame.store, Nat.mod_eq_of_lt h]

theorem TxFrame.store_len (f : TxFrame) (frame : List Byte) (h : frame.length < 65536) :
    (f.store frame).len.toNat = frame.length := by
  simp [TxFrame.store, Nat.mod_eq_of_lt h]

theorem RxFrame.store_bytes (f : RxFrame) (r : List Byte) (e : U16) (h : r.length < 65536) :
    (f.store r e).bytes = r := by
  simp [RxFrame.bytes, RxFrame.store, Nat.mod_eq_of_lt h]

theorem RxFrame.store_len (f : RxFrame) (r : List Byte) (e : U16) (h : r.length < 65536) :
    (f.store r e).len.toNat = r.length := by
  simp [RxFrame.store, Nat.mod_eq_of_lt h]

@[simp] theorem RxFrame.store_exp (f : RxFrame) (r : List Byte) (e : U16) : (f.store r e).exp = e := rfl
@[simp] theorem RxFrame.store_crcOk (f : RxFrame) (r : List Byte) (e : U16) :
    (f.store r e).crcOk = Machine.crcOk r := rfl
@[simp] theorem RxFrame.store_exc (f : RxFrame) (r : List Byte) (e : U16) : (f.store r e).exc = excBit r := rfl

@[simp] theorem length_withCrc (body : List Byte) : (withCrc body).length = body.length + 2 := by
  simp [withCrc]

/-! ### Accepting and ending commands -/

theorem whenIdle_idle {s : State} (h : s.busy = false) (f : State → Out) : whenIdle s f = f s := by
  simp [whenIdle, h]

theorem whenIdle_busy {s : State} (h : s.busy = true) (f : State → Out) : whenIdle s f = .next s := by
  simp [whenIdle, h]

/-- A command that passes the port's check either is turned away with nothing changed, or has its effect. -/
theorem whenIdle_next {s t : State} {f : State → State} (h : whenIdle s (fun s => .next (f s)) = .next t) :
    (s.busy = true ∧ t = s) ∨ (s.busy = false ∧ t = f s) := by
  unfold whenIdle at h
  split at h
  · next hb => exact .inl ⟨hb, by cases h; rfl⟩
  · next hb => exact .inr ⟨by simpa using hb, by cases h; rfl⟩

/-- A checked command ends with a `raise` of the check's cause, or goes on. -/
theorem endChecked_cases (c : Option Byte) (s : State) (ok : State → State) :
    (∃ k, c = some k ∧ endChecked c s ok = raise k s) ∨ (c = none ∧ endChecked c s ok = ok s) := by
  cases c with
  | none => exact .inr ⟨rfl, rfl⟩
  | some k => exact .inl ⟨k, rfl, rfl⟩

/-- No instruction stops: every meaning answers a next state. -/
theorem exec_total (i : Instr) (s : State) : ∃ t, exec i s = .next t := by
  cases i <;> (unfold exec; dsimp only) <;> first
    | exact ⟨_, rfl⟩
    | (cases hb : s.busy
       · exact ⟨_, whenIdle_idle hb _⟩
       · exact ⟨_, whenIdle_busy hb _⟩)

/-! ### The step -/

@[simp] theorem withMoves_moves (s : State) (ms : List Move) : (withMoves s ms).env.moves = ms := rfl

/-- A step that answers a next state makes the first move of the schedule, or none when there is none. -/
theorem step_cases {s t : State} (h : step s = .next t) :
    (s.env.moves = [] ∧ t = s) ∨
    ∃ m rest, s.env.moves = m :: rest ∧
      ((∃ p i, m = .host p ∧ decode p = .instr i ∧ exec i (withMoves s rest) = .next t) ∨
       (∃ p op, m = .host p ∧ decode p = .rejected (.illegalCode op) ∧
          illegalCommand (withMoves s rest) = .next t) ∨
       (∃ p e a fc reg v1 v2, m = .host p ∧ decode p = .rejected e ∧
          exec (.buildRequest a fc reg v1 v2) (withMoves s rest) = .next t) ∨
       (m = .resetInput ∧ t = resetBlock (withMoves s rest)) ∨
       (m = .core ∧ coreMove (withMoves s rest) = .next t) ∨
       (∃ k, m = .takes k ∧ t = transportTakes k (withMoves s rest)) ∨
       (∃ bs, m = .gives bs ∧ t = transportGives bs (withMoves s rest)) ∨
       (∃ ms, m = .elapse ms ∧ t = timeElapses ms (withMoves s rest))) := by
  unfold step nextMove at h
  cases hm : s.env.moves with
  | nil => simp only [hm] at h; cases h; exact .inl ⟨rfl, rfl⟩
  | cons m rest =>
    refine .inr ⟨m, rest, rfl, ?_⟩
    simp only [hm] at h
    cases m with
    | host p =>
      simp only [hostMove] at h
      split at h
      · next i hi => exact .inl ⟨p, i, rfl, hi, h⟩
      · next e he =>
        cases e with
        | illegalCode op => exact .inr (.inl ⟨p, op, rfl, he, h⟩)
        | noCode => cases h
        | badOperands _ => cases h
        | shortBody => cases h
        | noShape a fc reg => exact .inr (.inr (.inl ⟨p, _, a, fc, reg, _, .absent, rfl, he, h⟩))
        | otherBody a fc reg v1 v2 => exact .inr (.inr (.inl ⟨p, _, a, fc, reg, v1, v2, rfl, he, h⟩))
    | resetInput => cases h; exact .inr (.inr (.inr (.inl ⟨rfl, rfl⟩)))
    | core => exact .inr (.inr (.inr (.inr (.inl ⟨rfl, h⟩))))
    | takes k => cases h; exact .inr (.inr (.inr (.inr (.inr (.inl ⟨k, rfl, rfl⟩)))))
    | gives bs => cases h; exact .inr (.inr (.inr (.inr (.inr (.inr (.inl ⟨bs, rfl, rfl⟩))))))
    | elapse ms => cases h; exact .inr (.inr (.inr (.inr (.inr (.inr (.inr ⟨ms, rfl, rfl⟩))))))

/-- What a move of the Core can lead to. -/
theorem coreMove_cases {s t : State} (h : coreMove s = .next t) :
    t = s ∨
    (s.phase = .tx ∧ s.tx.bytes.length ≤ s.hidden.txPos ∧ t = afterTransmit s) ∨
    (s.phase = .rxWait ∧ windowEnds s = true ∧ t = closeWindow s.hidden.rxAcc s.rx.exp s) ∨
    (s.phase = .gap ∧ s.hidden.gapLeft = 0 ∧ t = afterExchange (endExchange s)) ∨
    (s.phase = .idle ∧ s.busy = true ∧ s.session.fwState = .transferring ∧
      s.session.blkIdx.toNat < s.session.blkCnt.toNat ∧ ∃ s1, fetchBlock s = some s1 ∧ t = sendBlock s1) ∨
    (s.phase = .idle ∧ s.busy = true ∧ s.session.fwState = .transferring ∧
      ¬ s.session.blkIdx.toNat < s.session.blkCnt.toNat ∧
      t = { s with session := { s.session with fwState := .committing } }) ∨
    (s.phase = .idle ∧ s.busy = true ∧ s.session.fwState = .committing ∧ t = sendMagic s.cfg.regUpdRun s) := by
  unfold coreMove at h
  cases hp : s.phase with
  | tx =>
    simp only [hp] at h
    split at h
    · next hc => cases h; exact .inr (.inl ⟨rfl, hc, rfl⟩)
    · cases h; exact .inl rfl
  | rxWait =>
    simp only [hp] at h
    split at h
    · next hc => cases h; exact .inr (.inr (.inl ⟨rfl, hc, rfl⟩))
    · cases h; exact .inl rfl
  | gap =>
    simp only [hp] at h
    split at h
    · next hc => cases h; exact .inr (.inr (.inr (.inl ⟨rfl, hc, rfl⟩)))
    · cases h; exact .inl rfl
  | idle =>
    simp only [hp] at h
    split at h
    · next hb =>
      unfold continueSession at h
      cases hf : s.session.fwState with
      | transferring =>
        simp only [hf] at h
        split at h
        · next hlt =>
          split at h
          · next s1 h1 => cases h; exact .inr (.inr (.inr (.inr (.inl ⟨rfl, hb, rfl, hlt, s1, h1, rfl⟩))))
          · cases h
        · next hlt => cases h; exact .inr (.inr (.inr (.inr (.inr (.inl ⟨rfl, hb, rfl, hlt, by rw [hp]⟩)))))
      | committing =>
        simp only [hf] at h
        cases h; exact .inr (.inr (.inr (.inr (.inr (.inr ⟨rfl, hb, rfl, rfl⟩)))))
      | initializing => simp only [hf] at h; cases h; exact .inl rfl
      | idle => simp only [hf] at h; cases h; exact .inl rfl
      | done => simp only [hf] at h; cases h; exact .inl rfl
      | failed => simp only [hf] at h; cases h; exact .inl rfl
    · cases h; exact .inl rfl

end Sys2Proof.Machine
end

