-- ==== Sys2Proof/Laws/PerInstr.lean ====
section
/-!
SUPPORT. Statements about every instruction, one lemma per constructor. Family `CodeByte`: the encoding of an instruction
carries its row's code where the opcode table says, the command code in front (30_encoding.md R113) or the function code
at frame offset 1 (R93).
-/
namespace Sys2Proof.Laws.CodeByte

/-- The code of an instruction's row of spec/opcode_table.json, and the offset at which its encoding carries it. -/
def row : Instr → Nat × Byte
  | .crcInit => (0, 0x01)
  | .crcByte _ => (0, 0x02)
  | .buildRequest _ _ _ _ _ => (0, 0x08)
  | .parseResponse _ => (0, 0x09)
  | .decFc => (0, 0x0A)
  | .decErrbc => (0, 0x0B)
  | .decRegs _ _ => (0, 0x0C)
  | .decCoils _ => (0, 0x0D)
  | .decCrcok => (0, 0x0E)
  | .readHoldingRegisters _ _ _ => (0, 0x10)
  | .readCoils _ _ _ => (0, 0x11)
  | .writeSingleRegister _ _ _ => (0, 0x12)
  | .writeSingleCoil _ _ _ => (0, 0x13)
  | .writeMultipleRegisters _ _ _ _ => (0, 0x14)
  | .writeMultipleCoils _ _ _ _ => (0, 0x15)
  | .fwStart _ => (0, 0x20)
  | .cfgWrite _ _ => (0, 0x30)
  | .regRead _ => (0, 0x31)
  | .bufRead _ _ => (0, 0x32)
  | .softReset => (0, 0x3F)
  | .reqReadCoils _ _ _ => (1, 0x01)
  | .reqReadDiscreteInputs _ _ _ => (1, 0x02)
  | .reqReadHoldingRegisters _ _ _ => (1, 0x03)
  | .reqReadInputRegisters _ _ _ => (1, 0x04)
  | .reqWriteSingleCoil _ _ _ => (1, 0x05)
  | .reqWriteSingleRegister _ _ _ => (1, 0x06)
  | .reqWriteMultipleCoils _ _ _ _ => (1, 0x0F)
  | .reqWriteMultipleRegisters _ _ _ _ => (1, 0x10)
  | .reqExceptionClass _ code _ _ => (1, exceptionCode code)

/-- The bytes of a presentation. -/
def bytesOf : Presented → List Byte
  | .command bytes => bytes
  | .request body => body

/-- The encoding of `i` carries its row's code at the row's offset. -/
def Statement (i : Instr) : Prop := (bytesOf (encode i))[(row i).1]? = some (row i).2

theorem crcInit : Statement (.crcInit) := rfl
theorem crcByte : ∀ b, Statement (.crcByte b) := fun _ => rfl
theorem buildRequest : ∀ a fc reg v1 v2, Statement (.buildRequest a fc reg v1 v2) := fun _ _ _ _ _ => rfl
theorem parseResponse : ∀ bs, Statement (.parseResponse bs) := fun _ => rfl
theorem decFc : Statement (.decFc) := rfl
theorem decErrbc : Statement (.decErrbc) := rfl
theorem decRegs : ∀ a b, Statement (.decRegs a b) := fun _ _ => rfl
theorem decCoils : ∀ c, Statement (.decCoils c) := fun _ => rfl
theorem decCrcok : Statement (.decCrcok) := rfl
theorem readHoldingRegisters : ∀ a b c, Statement (.readHoldingRegisters a b c) := fun _ _ _ => rfl
theorem readCoils : ∀ a b c, Statement (.readCoils a b c) := fun _ _ _ => rfl
theorem writeSingleRegister : ∀ a b c, Statement (.writeSingleRegister a b c) := fun _ _ _ => rfl
theorem writeSingleCoil : ∀ a b c, Statement (.writeSingleCoil a b c) := fun _ _ _ => rfl
theorem writeMultipleRegisters : ∀ a b c d, Statement (.writeMultipleRegisters a b c d) := fun _ _ _ _ => rfl
theorem writeMultipleCoils : ∀ a b c d, Statement (.writeMultipleCoils a b c d) := fun _ _ _ _ => rfl
theorem fwStart : ∀ i, Statement (.fwStart i) := fun _ => rfl
theorem cfgWrite : ∀ a b, Statement (.cfgWrite a b) := fun _ _ => rfl
theorem regRead : ∀ a, Statement (.regRead a) := fun _ => rfl
theorem bufRead : ∀ a b, Statement (.bufRead a b) := fun _ _ => rfl
theorem softReset : Statement (.softReset) := rfl
theorem reqReadCoils : ∀ a b c, Statement (.reqReadCoils a b c) := fun _ _ _ => rfl
theorem reqReadDiscreteInputs : ∀ a b c, Statement (.reqReadDiscreteInputs a b c) := fun _ _ _ => rfl
theorem reqReadHoldingRegisters : ∀ a b c, Statement (.reqReadHoldingRegisters a b c) := fun _ _ _ => rfl
theorem reqReadInputRegisters : ∀ a b c, Statement (.reqReadInputRegisters a b c) := fun _ _ _ => rfl
theorem reqWriteSingleCoil : ∀ a b c, Statement (.reqWriteSingleCoil a b c) := fun _ _ _ => rfl
theorem reqWriteSingleRegister : ∀ a b c, Statement (.reqWriteSingleRegister a b c) := fun _ _ _ => rfl
theorem reqWriteMultipleCoils : ∀ a b c d, Statement (.reqWriteMultipleCoils a b c d) := fun _ _ _ _ => rfl
theorem reqWriteMultipleRegisters : ∀ a b c d, Statement (.reqWriteMultipleRegisters a b c d) := fun _ _ _ _ => rfl
theorem reqExceptionClass : ∀ a k b c, Statement (.reqExceptionClass a k b c) := by
  intro a k b c
  have h : funcClass (exceptionCode k) = some .exceptionClass := by
    have : (exceptionCode k).getLsbD 7 = true := by
      simp only [exceptionCode, BitVec.getLsbD_append]
      rfl
    simp [funcClass, this]
  simp [Statement, row, bytesOf, encode, requestBody, h]

end Sys2Proof.Laws.CodeByte
end

