-- ==== Sys2Proof/Laws/Requests.lean ====
section
/-!
SUPPORT. What the shared operations over requests do: the checks, `BUILD_REQUEST`, an Arbiter command, an accessor, the block
fetch. Each lemma says once everything its operation can lead to.
-/
namespace Sys2Proof.Machine

/-! ### The checksum over sequences -/

@[simp] theorem crcFrom_nil (c : U16) : crcFrom c [] = c := rfl
@[simp] theorem crcFrom_cons (c : U16) (b : Byte) (s : List Byte) : crcFrom c (b :: s) = crcFrom (crcByte c b) s := rfl

theorem crcFrom_append (c : U16) (s t : List Byte) : crcFrom c (s ++ t) = crcFrom (crcFrom c s) t :=
  List.foldl_append

/-! ### The model's buffers and the statements' -/

theorem store_withCrc (s : State) (body : List Byte) : s.tx.store (withCrc body) = frameIn s body := by
  simp [TxFrame.store, frameIn, inFront, writeFront]

theorem store_received (s : State) (r : List Byte) (e : U16) : s.rx.store r e = bytesIn s r e := by
  unfold RxFrame.store bytesIn
  congr 1
  · unfold crcOk
    split
    · rw [eq_comm, decide_eq_false_iff_not]; omega
    · rename_i h; rw [Bool.eq_iff_iff]; simp; omega
  · simp [excBit]

theorem frameIn_bytes (s : State) (body : List Byte) (h : body.length + 2 < 65536) :
    (frameIn s body).bytes = withCrc body := by
  rw [← store_withCrc]; exact TxFrame.store_bytes _ _ (by simpa using h)

theorem frameIn_len (s : State) (body : List Byte) (h : body.length + 2 < 65536) :
    (frameIn s body).len.toNat = body.length + 2 := by
  rw [← store_withCrc, TxFrame.store_len _ _ (by simpa using h)]; simp

/-! ### The checks of a request -/

/-- A request that passes its checks has a legal address and a frame shape whose own checks pass. -/
theorem requestCheck_none {o : Operands} {d c : Nat} (h : requestCheck o d c = none) :
    o.devAddr.toNat ≤ 247 ∧ ∃ k, funcClass o.func = some k ∧ shapeCheck k o.value1 d c = none := by
  unfold requestCheck at h
  split at h
  · cases h
  · next ha =>
    split at h
    · cases h
    · next k hk => exact ⟨by omega, k, hk, h⟩

/-- A request that passes its checks fits `TXBUF` (R118). -/
theorem frame_fits {o : Operands} {d c : Nat} (h : requestCheck o d c = none) : o.frame.length ≤ 264 := by
  obtain ⟨-, k, hk, hs⟩ := requestCheck_none h
  simp only [Operands.frame, length_withCrc, Operands.body, length_requestBody hk, length_payload]
  cases k
  case multipleCoils =>
    simp only [shapeCheck] at hs
    split at hs
    · cases hs
    · simp only [coilBytes]; omega
  case multipleRegisters =>
    simp only [shapeCheck] at hs
    split at hs
    · cases hs
    · simp only [List.length_take]; omega
  all_goals (simp only []; omega)

/-- The causes a request can be refused for: 2, 3, 4 and 5 (R117 to R119). -/
theorem requestCheck_some {o : Operands} {d c : Nat} {k : Byte} (h : requestCheck o d c = some k) :
    k = 2 ∨ k = 3 ∨ k = 4 ∨ k = 5 := by
  unfold requestCheck at h
  split at h
  · cases h; decide
  · split at h
    · cases h; decide
    · next c' _ =>
      cases c' <;> simp only [shapeCheck] at h <;> (try cases h) <;> (repeat' split at h) <;> cases h <;> decide

/-! ### The operations -/

/-- `BUILD_REQUEST` ends with the cause of its checks, or with its frame in `TXBUF` (R150). -/
theorem buildRequestOp_cases (a fc : Byte) (reg v1 : U16) (v2 : Value2) (s : State) :
    let o := (s.opnd.latch a fc reg v1).latchValue2 fc v2
    (∃ k, requestCheck o (dataLength o v2) (coilsLength o v2) = some k ∧
      buildRequestOp a fc reg v1 v2 s = raise k { s with opnd := o }) ∨
    (requestCheck o (dataLength o v2) (coilsLength o v2) = none ∧ o.frame.length ≤ 264 ∧
      buildRequestOp a fc reg v1 v2 s =
        endOk (.word (s.tx.store o.frame).len) { s with opnd := o, tx := s.tx.store o.frame }) := by
  intro o
  cases h : requestCheck o (dataLength o v2) (coilsLength o v2) with
  | some k => exact .inl ⟨k, rfl, by simp only [buildRequestOp]; rw [h]; rfl⟩
  | none => exact .inr ⟨rfl, frame_fits h, by simp only [buildRequestOp]; rw [h]; rfl⟩

/-- An Arbiter command ends with the cause of its checks, or begins its exchange (R202, R216). -/
theorem arbiterOp_cases (o : Operands) (d c : Nat) (s : State) :
    (∃ k, (requestCheck o d c).or (sizeCheck o.func o.value1) = some k ∧
      arbiterOp o d c s = raise k { s with opnd := o }) ∨
    (requestCheck o d c = none ∧ expectedLength o.func o.value1 ≤ 260 ∧ o.frame.length ≤ 264 ∧
      arbiterOp o d c s = beginExchange { s with opnd := o, tx := s.tx.store o.frame }) := by
  cases h : requestCheck o d c with
  | some k => exact .inl ⟨k, rfl, by simp only [arbiterOp]; rw [h]; rfl⟩
  | none =>
    by_cases hz : expectedLength o.func o.value1 > Config.rxMax
    · exact .inl ⟨6, by simp [sizeCheck, hz], by simp [arbiterOp, h, sizeCheck, hz, endChecked]⟩
    · refine .inr ⟨rfl, by simpa [Config.rxMax] using hz, frame_fits h, ?_⟩
      simp only [arbiterOp, h, sizeCheck, if_neg hz]; rfl

/-- An accessor returns its value or ends with cause 7 (R186). -/
theorem accessor_cases (inside : Prop) [Decidable inside] (r : Ret) (s : State) :
    (inside ∧ accessor inside r s = endOk r s) ∨ (¬ inside ∧ accessor inside r s = raise 7 s) := by
  by_cases h : inside
  · exact .inl ⟨h, by simp [accessor, h, endChecked]⟩
  · exact .inr ⟨h, by simp [accessor, h, endChecked]⟩

/-- A block that was fetched has the image bytes of that block, padded; nothing but `BLKBUF` changed (R248). -/
theorem fetchBlock_some {s s1 : State} (h : fetchBlock s = some s1) :
    ∃ bs : List Byte, bs.length = blockBytesIn s.session.imgSize.toNat s.session.blkIdx.toNat ∧
      s1 = { s with session := { s.session with blkBuf := padBlock bs } } := by
  unfold fetchBlock at h
  simp only [Option.map_eq_some_iff] at h
  obtain ⟨bs, hb, rfl⟩ := h
  refine ⟨bs, ?_, rfl⟩
  unfold Memory.readRange at hb
  simp only [] at hb
  split at hb
  · next hh => cases hb; exact hh
  · cases hb

/-! ### Runs -/

theorem step_of_core {s : State} {rest : List Move} (h : s.env.moves = .core :: rest) :
    step s = coreMove (withMoves s rest) := by
  simp only [step, nextMove, h]; rfl

theorem step_of_takes {s : State} {rest : List Move} {k : Nat} (h : s.env.moves = .takes k :: rest) :
    step s = .next (transportTakes k (withMoves s rest)) := by
  simp only [step, nextMove, h]; rfl

theorem step_of_gives {s : State} {rest : List Move} {bs : List Byte} (h : s.env.moves = .gives bs :: rest) :
    step s = .next (transportGives bs (withMoves s rest)) := by
  simp only [step, nextMove, h]; rfl

theorem step_of_elapse {s : State} {rest : List Move} {ms : Nat} (h : s.env.moves = .elapse ms :: rest) :
    step s = .next (timeElapses ms (withMoves s rest)) := by
  simp only [step, nextMove, h]; rfl

@[simp] theorem driven_nil (s : State) : driven s [] = .next (withMoves s []) := rfl

/-- A run whose first step is known goes on from where that step led. -/
theorem driven_cons {s t : State} {m : Move} {ms : List Move} (h : step (withMoves s (m :: ms)) = .next t)
    (ht : t.env.moves = ms) : driven s (m :: ms) = driven t ms := by
  have e : withMoves t ms = t := by cases t; cases ht; rfl
  have h' : core.step (withMoves s (m :: ms)) = .next t := h
  simp only [driven, List.length_cons, Host.Core.run, h', e]; rfl

/-- A run that ends in a next state made its first step. -/
theorem driven_cons_inv {s u : State} {m : Move} {ms : List Move} (h : driven s (m :: ms) = .next u) :
    ∃ t, step (withMoves s (m :: ms)) = .next t ∧ Host.Core.run core ms.length t = .next u := by
  cases e : step (withMoves s (m :: ms)) with
  | next t =>
    have h' : core.step (withMoves s (m :: ms)) = .next t := e
    simp only [driven, List.length_cons, Host.Core.run, h'] at h
    exact ⟨t, rfl, h⟩
  | fault f =>
    have h' : core.step (withMoves s (m :: ms)) = .fault f := e
    simp only [driven, List.length_cons, Host.Core.run, h'] at h
    cases h
  | refused r =>
    have h' : core.step (withMoves s (m :: ms)) = .refused r := e
    simp only [driven, List.length_cons, Host.Core.run, h'] at h
    cases h

end Sys2Proof.Machine
end

