-- ==== Sys2Proof/Tests/Slice0.lean ====
section
/-!
SUPPORT. The model's own tests. Expected values come from spec/: the vectors V<n> of 95_test_vectors.md, or the rule a test
names. Then the witnesses: for every statement with hypotheses, a concrete state and operands that meet them together.
-/
namespace Sys2Proof.Tests
open Sys2Proof Sys2Proof.Machine

set_option Elab.async false

/-! ### Ill-formed instructions are refused by the checks -/

theorem test_wf_reqWriteSingleCoil_value : (Instr.reqWriteSingleCoil 1 0 2).wellFormed = false := by decide
theorem test_wf_reqWriteMultipleCoils_length : (Instr.reqWriteMultipleCoils 1 0 2 [true]).wellFormed = false := by decide
theorem test_wf_reqWriteMultipleRegisters_count : (Instr.reqWriteMultipleRegisters 1 0 256 []).wellFormed = false := by decide
theorem test_wf_reqExceptionClass_value : (Instr.reqExceptionClass 1 6 0 256).wellFormed = false := by decide

/-! ### Decoding: one word of every constructor, written out from R113 and R95 to R98 -/

theorem test_decode_crcInit : decode (.command [0x01]) = .instr .crcInit := by decide
theorem test_decode_crcByte : decode (.command [0x02, 0xA5]) = .instr (.crcByte 0xA5) := by decide
theorem test_decode_buildRequest_absent :
    decode (.command [0x08, 0x11, 0x01, 0x00, 0x13, 0x00, 0x25, 0]) =
      .instr (.buildRequest 0x11 0x01 0x0013 0x0025 .absent) := by decide
theorem test_decode_buildRequest_data :
    decode (.command [0x08, 0x01, 0x10, 0x01, 0x00, 0x00, 0x01, 1, 0xBE, 0xEF]) =
      .instr (.buildRequest 0x01 0x10 0x0100 1 (.data [0xBE, 0xEF])) := by decide
theorem test_decode_buildRequest_coils :
    decode (.command [0x08, 0x01, 0x0F, 0x00, 0x20, 0x00, 0x02, 2, 1, 0]) =
      .instr (.buildRequest 0x01 0x0F 0x0020 2 (.coils [true, false])) := by decide
theorem test_decode_parseResponse :
    decode (.command [0x09, 0xFF, 0xFE]) = .instr (.parseResponse [0xFF, 0xFE]) := by decide
theorem test_decode_decFc : decode (.command [0x0A]) = .instr .decFc := by decide
theorem test_decode_decErrbc : decode (.command [0x0B]) = .instr .decErrbc := by decide
theorem test_decode_decRegs : decode (.command [0x0C, 0x01, 0x02, 0x03, 0x04]) = .instr (.decRegs 0x0102 0x0304) := by decide
theorem test_decode_decCoils : decode (.command [0x0D, 0x01, 0x02]) = .instr (.decCoils 0x0102) := by decide
theorem test_decode_decCrcok : decode (.command [0x0E]) = .instr .decCrcok := by decide
theorem test_decode_readHoldingRegisters :
    decode (.command [0x10, 0x11, 0x00, 0x6B, 0x00, 0x03]) = .instr (.readHoldingRegisters 0x11 0x006B 3) := by decide
theorem test_decode_readCoils :
    decode (.command [0x11, 0x11, 0x00, 0x13, 0x00, 0x03]) = .instr (.readCoils 0x11 0x0013 3) := by decide
theorem test_decode_writeSingleRegister :
    decode (.command [0x12, 0x05, 0x12, 0x34, 0xF5, 0xF5]) = .instr (.writeSingleRegister 5 0x1234 0xF5F5) := by decide
theorem test_decode_writeSingleCoil :
    decode (.command [0x13, 0x11, 0x00, 0xAC, 1]) = .instr (.writeSingleCoil 0x11 0x00AC true) := by decide
theorem test_decode_writeMultipleRegisters :
    decode (.command [0x14, 0x01, 0x00, 0x00, 0x00, 0x01, 0xAB, 0xCD]) =
      .instr (.writeMultipleRegisters 1 0 1 [0xAB, 0xCD]) := by decide
theorem test_decode_writeMultipleCoils :
    decode (.command [0x15, 0x11, 0x00, 0x13, 0x00, 0x02, 0, 1]) =
      .instr (.writeMultipleCoils 0x11 0x0013 2 [false, true]) := by decide
theorem test_decode_fwStart : decode (.command [0x20, 0xA5, 0x5A]) = .instr (.fwStart [0xA5, 0x5A]) := by decide
theorem test_decode_cfgWrite : decode (.command [0x30, 0x23, 0x12, 0x34]) = .instr (.cfgWrite 0x23 0x1234) := by decide
theorem test_decode_regRead : decode (.command [0x31, 0x20]) = .instr (.regRead 0x20) := by decide
theorem test_decode_bufRead : decode (.command [0x32, 0x05, 0x00, 0x7F]) = .instr (.bufRead 5 127) := by decide
theorem test_decode_softReset : decode (.command [0x3F]) = .instr .softReset := by decide
/-- V22 without its checksum. -/
theorem test_decode_reqReadCoils :
    decode (.request [0x11, 0x01, 0x00, 0x13, 0x00, 0x25]) = .instr (.reqReadCoils 0x11 0x0013 0x0025) := by decide
theorem test_decode_reqReadDiscreteInputs :
    decode (.request [0x01, 0x02, 0x00, 0x00, 0x00, 0x08]) = .instr (.reqReadDiscreteInputs 1 0 8) := by decide
theorem test_decode_reqReadHoldingRegisters :
    decode (.request [0xF7, 0x03, 0x00, 0x00, 0x00, 0x01]) = .instr (.reqReadHoldingRegisters 0xF7 0 1) := by decide
theorem test_decode_reqReadInputRegisters :
    decode (.request [0x01, 0x04, 0x00, 0x08, 0x00, 0x01]) = .instr (.reqReadInputRegisters 1 8 1) := by decide
theorem test_decode_reqWriteSingleCoil :
    decode (.request [0x01, 0x05, 0x00, 0xAC, 0xFF, 0x00]) = .instr (.reqWriteSingleCoil 1 0x00AC 1) := by decide
theorem test_decode_reqWriteSingleRegister :
    decode (.request [0x11, 0x06, 0x00, 0x01, 0x00, 0x03]) = .instr (.reqWriteSingleRegister 0x11 1 3) := by decide
/-- V28. -/
theorem test_decode_reqWriteMultipleCoils :
    decode (.request [0x11, 0x0F, 0x00, 0x13, 0x00, 0x0A, 0x02, 0xCD, 0x01]) =
      .instr (.reqWriteMultipleCoils 0x11 0x0013 10
        [true, false, true, true, false, false, true, true, true, false]) := by decide
/-- V29c. -/
theorem test_decode_reqWriteMultipleRegisters :
    decode (.request [0x11, 0x10, 0x00, 0x01, 0x00, 0x02, 0x04, 0x00, 0x0A, 0x01, 0x02]) =
      .instr (.reqWriteMultipleRegisters 0x11 1 2 [0x00, 0x0A, 0x01, 0x02]) := by decide
/-- V30. -/
theorem test_decode_reqExceptionClass :
    decode (.request [0x01, 0x86, 0x00, 0x01, 0x02]) = .instr (.reqExceptionClass 1 0x06 1 2) := by decide

/-- R116, V75: a code outside the table. -/
theorem test_decode_illegal : decode (.command [0x16, 1, 2]) = .rejected (.illegalCode 0x16) := by decide
/-- R113: a command without its operands, and a request body that ends before `value1`. -/
theorem test_decode_malformed :
    decode (.command []) = .rejected .noCode ∧ decode (.command [0x30, 0x20]) = .rejected (.badOperands 0x30) ∧
    decode (.request [0x01, 0x03, 0, 0, 0]) = .rejected .shortBody := by decide
/-- R119: no shape; R95, R96 and R97: a body that no operands give carries its operands all the same (log entry 2). -/
theorem test_decode_other_bodies :
    decode (.request [0x01, 0x07, 0, 2, 0, 0]) = .rejected (.noShape 0x01 0x07 2) ∧
    decode (.request [0x01, 0x10, 0, 0, 1, 0, 0]) = .rejected (.otherBody 0x01 0x10 0 256 (.data [])) ∧
    decode (.request [0x01, 0x0F, 0, 0, 0, 1, 1, 3]) = .rejected (.otherBody 0x01 0x0F 0 1 (.coils [true])) ∧
    decode (.request [0x01, 0x05, 0, 0, 0x12, 0x34]) = .rejected (.otherBody 0x01 0x05 0 0x1234 .absent) ∧
    decode (.request [0x01, 0x06, 0, 0, 0, 1, 9]) = .rejected (.otherBody 0x01 0x06 0 1 (.data [9])) := by decide

/-- 30_encoding.md R104's example. -/
theorem test_block_integer : blockBytes 2 0x0001ABCD = [0x00, 0x01, 0xAB, 0xCD] := by decide
/-- R104: an integer that needs more bytes shows as a length that does not match. -/
theorem test_block_integer_too_long :
    blockBytes 2 0x100000000 = [0x01, 0, 0, 0, 0] ∧ blockBytes 0 1 = [0x01] ∧ blockBytes 0 0 = [] := by decide

/-! ### Instructions, one step each -/

/-- The state an instruction leads to, or the state itself when it stops. -/
def after (i : Instr) (s : State) : State :=
  match exec i s with
  | .next t => t
  | .fault _ => s
  | .refused _ => s

/-- The status, the detail byte and the returned value an instruction leaves. -/
def ends (i : Instr) (s : State) : Kind × Byte × Ret :=
  ((after i s).result.status, (after i s).result.errInfo, (after i s).result.ret)

/-- `PV(k)` of 95_test_vectors.md. -/
def pv (k : Byte) : Kind × Byte × Ret := (.protocolViolation, k, .none)

/-- The frame of a request, built from reset, and `TXLEN` as it is returned. -/
def built (i : Instr) : List Byte × Ret := ((after i State.reset).tx.bytes, (after i State.reset).result.ret)

/-- The phase and the request after an Arbiter command was accepted from reset. -/
def sent (i : Instr) : Phase × List Byte := ((after i State.reset).phase, (after i State.reset).tx.bytes)

/-- The reset state with received bytes loaded. -/
def withRx (r : List Byte) : State := after (.parseResponse r) State.reset

/-- R132's example. -/
theorem test_crcInit : (after .crcInit { State.reset with crc := 0x437F }).crc = 0xFFFF := by decide
/-- V19, V13. -/
theorem test_crcByte_05 : ends (.crcByte 0x05) State.reset = (.ok, 0, .word 0x437F) := by decide
theorem test_crcByte_80 : (after (.crcByte 0x80) State.reset).crc = 0xE0BE := by decide
/-- V36. -/
theorem test_buildRequest_ignores_value2 :
    built (.buildRequest 1 0x03 0 2 (.data [0, 1])) = ([0x01, 0x03, 0x00, 0x00, 0x00, 0x02, 0xC4, 0x0B], .word 8) ∧
    (after (.buildRequest 1 0x03 0 2 (.data [0, 1])) State.reset).opnd.wLen = 0 := by decide +kernel
/-- V34b, V35. -/
theorem test_buildRequest_refusals :
    ends (.buildRequest 1 0x10 0 2 .absent) State.reset = pv 4 ∧
    ends (.buildRequest 0xF8 0x07 0 0 .absent) State.reset = pv 2 := by decide
/-- V38. -/
theorem test_parseResponse :
    (withRx [0x01, 0x83, 0x02, 0xC0, 0xF1]).rx.crcOk = true ∧ (withRx [0x01, 0x83, 0x02, 0xC0, 0xF1]).rx.exc = true ∧
    ends (.parseResponse [0x01, 0x83, 0x02, 0xC0, 0xF1]) State.reset = (.ok, 0, .word 5) := by decide +kernel
/-- V42. -/
theorem test_parseResponse_too_long : ends (.parseResponse (List.replicate 261 0)) State.reset = pv 11 := by decide +kernel
/-- V38, V40. -/
theorem test_decFc :
    ends .decFc (withRx [0x01, 0x83, 0x02, 0xC0, 0xF1]) = (.ok, 0, .byte 0x83) ∧ ends .decFc (withRx [0x05]) = pv 7 := by
  decide
theorem test_decErrbc :
    ends .decErrbc (withRx [0x01, 0x83, 0x02, 0xC0, 0xF1]) = (.ok, 0, .byte 0x02) ∧
    ends .decErrbc (withRx [0xFF, 0xFF]) = pv 7 := by decide
/-- V37. -/
theorem test_decRegs :
    ends (.decRegs 0 2) (withRx [0x01, 0x03, 0x04, 0x00, 0x01, 0xAB, 0xCD, 0x15, 0x56]) =
      (.ok, 0, .words [0x0001, 0xABCD]) ∧
    ends (.decRegs 2 0) (withRx [0x01, 0x03, 0x04, 0x00, 0x01, 0xAB, 0xCD, 0x15, 0x56]) = (.ok, 0, .words []) := by decide
theorem test_decRegs_outside :
    ends (.decRegs 1 2) (withRx [0x01, 0x03, 0x04, 0x00, 0x01, 0xAB, 0xCD, 0x15, 0x56]) = pv 7 ∧
    ends (.decRegs 3 0) (withRx [0x01, 0x03, 0x04, 0x00, 0x01, 0xAB, 0xCD, 0x15, 0x56]) = pv 7 := by decide
/-- V41. -/
theorem test_decCoils :
    ends (.decCoils 3) (withRx [0x11, 0x01, 0x03, 0x05, 0x00, 0x00, 0x2E, 0xDF]) = (.ok, 0, .bytes [0x05, 0x00, 0x00]) ∧
    ends (.decCoils 4) (withRx [0x11, 0x01, 0x03, 0x05, 0x00, 0x00, 0x2E, 0xDF]) = pv 7 := by decide
/-- V42. -/
theorem test_decCrcok :
    ends .decCrcok (withRx [0x05, 0x06, 0x12, 0x34, 0xF5, 0xF5, 0x4B, 0xEF]) = (.ok, 0, .bool true) ∧
    ends .decCrcok (withRx [0x05, 0x06, 0x12, 0x34, 0xF5, 0xF5, 0xEF, 0x4B]) = (.ok, 0, .bool false) := by decide +kernel
/-- V44. -/
theorem test_readHoldingRegisters :
    sent (.readHoldingRegisters 0x11 0x006B 3) = (.tx, [0x11, 0x03, 0x00, 0x6B, 0x00, 0x03, 0x76, 0x87]) := by decide +kernel
/-- V54. -/
theorem test_readHoldingRegisters_too_many : ends (.readHoldingRegisters 1 0 128) State.reset = pv 6 := by decide
/-- V54. -/
theorem test_readCoils : sent (.readCoils 1 0 255) = (.tx, [0x01, 0x01, 0x00, 0x00, 0x00, 0xFF, 0x7C, 0x4A]) := by decide +kernel
theorem test_readCoils_too_many : ends (.readCoils 1 0 256) State.reset = pv 6 := by decide
/-- V56, V55. -/
theorem test_writeSingleRegister :
    sent (.writeSingleRegister 5 0x1234 0xF5F5) = (.tx, [0x05, 0x06, 0x12, 0x34, 0xF5, 0xF5, 0x4B, 0xEF]) := by decide +kernel
theorem test_writeSingleRegister_address : ends (.writeSingleRegister 0xF8 0 0) State.reset = pv 2 := by decide
/-- V45. -/
theorem test_writeSingleCoil :
    sent (.writeSingleCoil 0x11 0x00AC true) = (.tx, [0x11, 0x05, 0x00, 0xAC, 0xFF, 0x00, 0x4E, 0x8B]) := by decide +kernel
/-- V56, V55. -/
theorem test_writeMultipleRegisters :
    sent (.writeMultipleRegisters 1 0 2 [0x00, 0x01, 0xAB, 0xCD]) =
      (.tx, [0x01, 0x10, 0x00, 0x00, 0x00, 0x02, 0x04, 0x00, 0x01, 0xAB, 0xCD, 0x1C, 0xCA]) := by decide +kernel
theorem test_writeMultipleRegisters_length :
    ends (.writeMultipleRegisters 1 0 127 (List.replicate 256 0)) State.reset = pv 4 := by decide +kernel
theorem test_writeMultipleCoils :
    sent (.writeMultipleCoils 0x11 0x0013 10 [true, false, true, true, false, false, true, true, true, false]) =
      (.tx, [0x11, 0x0F, 0x00, 0x13, 0x00, 0x0A, 0x02, 0xCD, 0x01, 0xBF, 0x0B]) := by decide +kernel
theorem test_writeMultipleCoils_length :
    ends (.writeMultipleCoils 1 0 10 (List.replicate 9 true)) State.reset = pv 4 := by decide
/-- V69: the first frame of a session with the placeholder configuration. -/
theorem test_fwStart :
    sent (.fwStart []) = (.tx, [0x01, 0x06, 0x00, 0x00, 0xF5, 0xF5, 0x0E, 0xDD]) := by decide +kernel
/-- V67. -/
theorem test_fwStart_again :
    ends (.fwStart []) { State.reset with session := { Session.reset with fwState := .done } } = pv 9 := by rfl
/-- V72. -/
theorem test_cfgWrite : (after (.cfgWrite 0x20 10) State.reset).cfg.tIfgMs = 10 := by decide
theorem test_cfgWrite_illegal :
    ends (.cfgWrite 0x26 248) State.reset = pv 8 ∧ ends (.cfgWrite 0x19 0) State.reset = pv 8 := by decide
/-- V71. -/
theorem test_regRead : (after (.regRead 0x22) State.reset).result.ret = .reg 30000 := by decide
theorem test_regRead_unassigned : ends (.regRead 0x1D) State.reset = (.ok, 0, .refused) := by decide
/-- V73. -/
theorem test_bufRead : (after (.bufRead 5 127) State.reset).result.ret = .byte 0xFF := by decide
theorem test_bufRead_outside :
    (after (.bufRead 5 128) State.reset).result.ret = .refused ∧ (after (.bufRead 2 0) State.reset).result.ret = .refused := by
  decide
/-- V74. -/
theorem test_softReset :
    (after .softReset { State.reset with session := { Session.reset with fwState := .failed } }).session.fwState = .idle := by
  decide
/-- V22. -/
theorem test_reqReadCoils :
    built (.reqReadCoils 0x11 0x0013 0x0025) = ([0x11, 0x01, 0x00, 0x13, 0x00, 0x25, 0x0E, 0x84], .word 8) := by decide +kernel
/-- V23. -/
theorem test_reqReadDiscreteInputs :
    built (.reqReadDiscreteInputs 1 0 8) = ([0x01, 0x02, 0x00, 0x00, 0x00, 0x08, 0x79, 0xCC], .word 8) := by decide +kernel
/-- V24a. -/
theorem test_reqReadHoldingRegisters :
    built (.reqReadHoldingRegisters 0xF7 0 1) = ([0xF7, 0x03, 0x00, 0x00, 0x00, 0x01, 0x90, 0x9C], .word 8) := by decide +kernel
/-- V25. -/
theorem test_reqReadInputRegisters :
    built (.reqReadInputRegisters 1 8 1) = ([0x01, 0x04, 0x00, 0x08, 0x00, 0x01, 0xB0, 0x08], .word 8) := by decide +kernel
/-- V26, V26a. -/
theorem test_reqWriteSingleCoil :
    built (.reqWriteSingleCoil 1 0x00AC 0xFFFF) = ([0x01, 0x05, 0x00, 0xAC, 0xFF, 0x00, 0x4C, 0x1B], .word 8) ∧
    built (.reqWriteSingleCoil 1 0x00AC 0) = ([0x01, 0x05, 0x00, 0xAC, 0x00, 0x00, 0x0D, 0xEB], .word 8) := by decide +kernel
/-- V27a. -/
theorem test_reqWriteSingleRegister :
    built (.reqWriteSingleRegister 0 1 3) = ([0x00, 0x06, 0x00, 0x01, 0x00, 0x03, 0x99, 0xDA], .word 8) := by decide +kernel
/-- V28a, V28b. -/
theorem test_reqWriteMultipleCoils :
    built (.reqWriteMultipleCoils 1 0 8 [true, false, false, false, false, false, false, true]) =
      ([0x01, 0x0F, 0x00, 0x00, 0x00, 0x08, 0x02, 0x81, 0x00, 0x84, 0xD0], .word 11) ∧
    built (.reqWriteMultipleCoils 1 0 0 []) =
      ([0x01, 0x0F, 0x00, 0x00, 0x00, 0x00, 0x01, 0x00, 0x7F, 0x57], .word 10) := by decide +kernel
/-- V29b, V29a. -/
theorem test_reqWriteMultipleRegisters :
    built (.reqWriteMultipleRegisters 1 0x0100 1 [0xBE, 0xEF]) =
      ([0x01, 0x10, 0x01, 0x00, 0x00, 0x01, 0x02, 0xBE, 0xEF, 0x86, 0xBC], .word 11) ∧
    built (.reqWriteMultipleRegisters 1 0 0 []) =
      ([0x01, 0x10, 0x00, 0x00, 0x00, 0x00, 0x00, 0x09, 0x50], .word 9) := by decide +kernel
/-- V30b, V33b. -/
theorem test_reqExceptionClass :
    built (.reqExceptionClass 1 0x7F 0x1234 0xAB) = ([0x01, 0xFF, 0x12, 0x34, 0xAB, 0xDE, 0xAE], .word 7) ∧
    ends (.reqExceptionClass 1 0x06 0 0x0100) State.reset = pv 3 := by decide +kernel

/-- R119, R117, R118: what a presented request body that no form encodes to does. -/
theorem test_presented_bodies :
    let st := fun body => match step (withMoves State.reset [.host (.request body)]) with
      | .next t => (t.result.status, t.result.errInfo, t.opnd.devAddr)
      | .fault _ => (.ok, 0xFF, 0)
      | .refused _ => (.ok, 0xFF, 0)
    st [0x01, 0x07, 0, 0] = (.protocolViolation, 5, 0x01) ∧ st [0xF8, 0x07, 0, 0] = (.protocolViolation, 2, 0xF8) ∧
    st [0xF8, 0x03, 0, 0, 0, 0] = (.protocolViolation, 2, 0xF8) ∧
    st [0x01, 0x10, 0, 0, 0, 2, 4, 1, 2, 3] = (.protocolViolation, 4, 0x01) ∧
    st [0x01, 0x10, 0, 0, 1, 0, 0] = (.protocolViolation, 3, 0x01) ∧
    st [0x01, 0x0F, 0, 0, 0, 10, 2, 1, 2, 3] = (.protocolViolation, 4, 0x01) := by decide +kernel

/-! ### Shared functions -/

/-- V46, V48, V49, V50, V52: the classification. -/
theorem test_classify :
    classify 1 9 [0x01] = (.shortFrame, 0) ∧
    classify 1 9 [0x01, 0x83, 0x02, 0xC0, 0xF1] = (.exceptionResponse, 2) ∧
    classify 1 9 [0x01, 0x83, 0x02, 0xC0] = (.shortFrame, 0) ∧
    classify 1 9 [0x01, 0x83, 0x02, 0xC0, 0xF0] = (.crcMismatch, 0) ∧
    classify 1 9 [0x01, 0x83, 0x02, 0xC0, 0xF1, 0x00] = (.exceptionResponse, 2) ∧
    classify 0 9 [0x01] = (.noResponse, 0) := by decide +kernel

/-- V18. -/
theorem test_crc16 : crc16 [0x31, 0x32, 0x33, 0x34, 0x35, 0x36, 0x37, 0x38, 0x39] = 0x4B37 := by decide +kernel

/-- V9: block counts. -/
theorem test_blockCount :
    blockCount 0 = 0 ∧ blockCount 1 = 1 ∧ blockCount 128 = 1 ∧ blockCount 129 = 2 ∧ blockCount 65536 = 512 := by decide

/-- V65 (b): the block of the one-byte image A5. -/
theorem test_block : paddedBlock [0xA5] 0 = 0xA5 :: List.replicate 127 0xFF := by decide

/-! ### Fetching the opcode table's words -/

theorem test_tableWord_command : decodeTableWord 8 0x12 = some (.writeSingleRegister 0 0 0) := by decide
theorem test_tableWord_request : decodeTableWord 8 0x86 = some (.reqExceptionClass 0 0x06 0 0) := by decide

/-! ### Witnesses: concrete states and operands that meet the hypotheses of each statement, at the ends of their ranges -/

/-- The state a step leads to, or the state itself when it stops. -/
def onward (s : State) : State :=
  match step s with
  | .next t => t
  | .fault _ => s
  | .refused _ => s

/-- The step leads to a next state. -/
def goes (s : State) : Bool :=
  match step s with
  | .next _ => true
  | .fault _ => false
  | .refused _ => false

theorem step_onward {s : State} (h : goes s = true) : step s = .next (onward s) := by
  unfold goes at h; unfold onward; split at h <;> simp_all

/-- The state an instruction that completes leads to. -/
theorem exec_after {i : Instr} {s : State}
    (h : (match exec i s with | .next _ => true | .fault _ => false | .refused _ => false) = true) :
    exec i s = .next (after i s) := by
  unfold after; split at h <;> simp_all

/-- The state a run leads to, or the state itself when it stops. -/
def ran (s : State) (ms : List Move) : State :=
  match driven s ms with
  | .next t => t
  | .fault _ => s
  | .refused _ => s

theorem driven_ran {s : State} {ms : List Move}
    (h : (match driven s ms with | .next _ => true | .fault _ => false | .refused _ => false) = true) :
    driven s ms = .next (ran s ms) := by
  unfold ran; split at h <;> simp_all

/-- An exchange that just began: three registers of device 0x11. -/
def sending : State := after (.readHoldingRegisters 0x11 0x006B 3) State.reset
/-- Its window is open, one byte collected. -/
def waiting : State := ran sending [.takes 8, .core, .gives [0x11]]
/-- The inter-frame delay after it, the window having run out. -/
def delaying : State := ran waiting [.elapse 1000, .core]
/-- A broadcast exchange that just began. -/
def broadcasting : State := after (.writeSingleRegister 0 1 2) State.reset
/-- Received bytes loaded: two registers. -/
def parsed : State := withRx [0x01, 0x03, 0x04, 0x00, 0x01, 0xAB, 0xCD, 0x15, 0x56]
/-- A good acknowledgement (V58), a bad one of the same length, and a short one. -/
def ack : List Byte := [0x05, 0x06, 0x12, 0x34, 0xF5, 0xF5, 0x4B, 0xEF]
def badAck : List Byte := [0x05, 0x06, 0x12, 0x34, 0xF5, 0xF5, 0x4B, 0xEE]
/-- A session that just began, of an image of no bytes. -/
def initializing : State := sendMagic 0 { State.reset with session := { Session.reset with fwState := .initializing } }
/-- The same session in the delay after the exchange of Initialize, answered with `r`, its next move the Core's. -/
def initialized (r : List Byte) : State :=
  withMoves (ran initializing [.takes 8, .core, .gives r, .elapse 30000, .core, .elapse 50]) [.core]
/-- A session between exchanges in Transfer: an image of 129 bytes, two blocks, `k` of them sent. -/
def between (k : Nat) : State :=
  { State.reset with
    busy := true
    mem := Memory.load (List.replicate 129 0xA5)
    session := { Session.reset with
      fwState := .transferring, imgSize := 129, blkCnt := 2, blkIdx := BitVec.ofNat 32 k
      bytesDone := BitVec.ofNat 32 (min (128 * k) 129) } }
/-- The same session in the delay after the exchange of block `k`, answered with `r`. -/
def blockSent (k : Nat) (r : List Byte) : State :=
  withMoves (ran (between k) [.core, .takes 137, .core, .gives r, .elapse 30000, .core, .elapse 50]) [.core]
/-- The same session about to send its commit frame, and in the delay after that exchange. -/
def committing : State := { between 2 with session := { (between 2).session with fwState := .committing } }
def committed (r : List Byte) : State :=
  withMoves (ran committing [.core, .takes 8, .core, .gives r, .elapse 30000, .core, .elapse 50]) [.core]
/-- A session that ended. -/
def done : State := ran (committed ack) [.core]

theorem inv_sending : Inv sending := by refine ⟨?_, ?_, ?_, ?_, ?_⟩ <;> constructor <;> decide +kernel
theorem inv_waiting : Inv waiting := by refine ⟨?_, ?_, ?_, ?_, ?_⟩ <;> constructor <;> decide +kernel
theorem inv_delaying : Inv delaying := by refine ⟨?_, ?_, ?_, ?_, ?_⟩ <;> constructor <;> decide +kernel
theorem inv_parsed : Inv parsed := by refine ⟨?_, ?_, ?_, ?_, ?_⟩ <;> constructor <;> decide +kernel
theorem inv_between : Inv (between 1) := by refine ⟨?_, ?_, ?_, ?_, ?_⟩ <;> constructor <;> decide +kernel
theorem inv_between_last : Inv (between 2) := by refine ⟨?_, ?_, ?_, ?_, ?_⟩ <;> constructor <;> decide +kernel
theorem inv_initialized : Inv (initialized ack) := by refine ⟨?_, ?_, ?_, ?_, ?_⟩ <;> constructor <;> decide +kernel
theorem inv_committed : Inv (committed badAck) := by
  refine ⟨?_, ?_, ?_, ?_, ?_⟩ <;> constructor <;> decide +kernel

/-- A state whose next move is the Host's: it presents the instruction. -/
def given (i : Instr) (s : State) : State := withMoves s [.host (encode i)]

theorem witness_ResetRegisterValues : ((0 : Byte)).toNat < 5 ∧ ((4 : Byte)).toNat < 5 := by decide
theorem witness_StepKeepsInvariant :
    ∃ s t, Inv s ∧ step s = .next t ∧ t.phase ≠ s.phase := by
  refine ⟨committed badAck, _, inv_committed, step_onward (by decide +kernel), by decide +kernel⟩
theorem witness_InvariantExcludesFaults : Inv (between 1) ∧ (between 1).session.fwState = .transferring :=
  ⟨inv_between, by decide⟩
theorem witness_ResetInputAndSoftReset :
    (withMoves waiting [.resetInput]).env.moves = .resetInput :: [] ∧ parsed.busy = false := by decide +kernel
theorem witness_DecodeOfEncode :
    (Instr.reqReadCoils 255 0xFFFF 0xFFFF).wellFormed = true ∧ (Instr.reqWriteSingleCoil 1 0 1).wellFormed = true ∧
    (Instr.reqExceptionClass 247 0x7F 0 255).wellFormed = true ∧ (Instr.reqWriteMultipleRegisters 0 0 255 [1]).wellFormed = true ∧
    (Instr.reqWriteMultipleCoils 1 0 2040 (List.replicate 2040 true)).wellFormed = true ∧
    (Instr.buildRequest 255 255 0 0 (.data (List.replicate 300 0))).wellFormed = true := by decide +kernel
theorem witness_EncodeOfDecode :
    decode (.request [0x01, 0x0F, 0, 0, 0, 7, 1, 0x7F]) = .instr (.reqWriteMultipleCoils 1 0 7 (List.replicate 7 true)) ∧
    decode (.command [0x32, 5, 0, 127]) = .instr (.bufRead 5 127) := by decide
theorem witness_StepRunsDecodedInstruction :
    (given (.crcByte 0x80) State.reset).env.moves = .host (.command [0x02, 0x80]) :: [] ∧
    decode (.command [0x02, 0x80]) = .instr (.crcByte 0x80) ∧
    decode (.request [0x01, 0x05, 0, 0, 0x12, 0x34]) = .rejected (.otherBody 0x01 0x05 0 0x1234 .absent) ∧
    decode (.request [0xF8, 0x07, 0, 2, 0, 0]) = .rejected (.noShape 0xF8 0x07 2) ∧
    6 ≤ [(0xF8 : Byte), 0x07, 0, 2, 0, 0].length := by decide
theorem witness_IllegalCodeRaisesOne :
    ∀ op ∈ [(0x00 : Byte), 0x03, 0x07, 0x0F, 0x16, 0x1F, 0x21, 0x2F, 0x33, 0x3E, 0x40, 0xFF],
      (op.toNat = 0x00 ∨ (0x03 ≤ op.toNat ∧ op.toNat ≤ 0x07) ∨ op.toNat = 0x0F ∨
        (0x16 ≤ op.toNat ∧ op.toNat ≤ 0x1F) ∨ (0x21 ≤ op.toNat ∧ op.toNat ≤ 0x2F) ∨
        (0x33 ≤ op.toNat ∧ op.toNat ≤ 0x3E) ∨ 0x40 ≤ op.toNat) ∧
      (withMoves State.reset [.host (.command [op, 1, 2])]).busy = false ∧
      (withMoves State.reset [.host (.command [op, 1, 2])]).env.moves = .host (.command (op :: [1, 2])) :: [] := by decide
theorem witness_CrcCommands : State.reset.busy = false ∧ parsed.busy = false := by decide +kernel
theorem witness_StreamingCrcIsCrc16 : parsed.busy = false := by decide +kernel
theorem witness_CrcResidue : 2 ≤ [(0xFF : Byte), 0xFF].length ∧ crcOk [0xFF, 0xFF] = true ∧ crcOk [0xFF, 0xFE] = false := by
  decide
theorem witness_CrcSeesSingleBitChange : 0 < 8 ∧ 7 < 8 := by decide
theorem witness_CrcIsUsedByItsCommandsOnly :
    (∃ t, step (given (.crcByte 0x05) State.reset) = .next t ∧ t.crc ≠ State.reset.crc) ∧
    (∃ t, exec .decFc parsed = .next t) ∧
    Instr.decFc ≠ .crcInit ∧ (∀ b, Instr.decFc ≠ .crcByte b) ∧ (∀ n, Instr.decFc ≠ .regRead n) ∧ Instr.decFc ≠ .softReset :=
  ⟨⟨_, step_onward (by decide +kernel), by decide +kernel⟩, ⟨_, exec_after (by decide +kernel)⟩,
    by decide, (by intro b h; cases h), (by intro n h; cases h), by decide⟩
theorem witness_PlainFormsBuildTheirFrames : parsed.busy = false ∧ ((0 : Byte)).toNat ≤ 247 ∧ ((247 : Byte)).toNat ≤ 247 := by
  decide +kernel
theorem witness_SingleCoilForm : parsed.busy = false ∧ ((247 : Byte)).toNat ≤ 247 := by decide +kernel
/-- The operand and count lengths of each clause; then the clauses without a `value2`. -/
theorem witness_MultipleCoilsForm :
    State.reset.busy = false ∧ ((247 : Byte)).toNat ≤ 247 ∧
    (((2039 : U16)).toNat ≤ 2039 ∧ (List.replicate 2039 true).length = ((2039 : U16)).toNat) ∧
    (((0 : U16)).toNat ≤ 2039 ∧ ([] : List Bool).length = ((0 : U16)).toNat) ∧
    ((List.replicate 2039 true).length ≤ 2039 ∧ 2039 < ((2040 : U16)).toNat) ∧
    ((List.replicate 2038 true).length ≤ 2039 ∧ ((2039 : U16)).toNat ≤ 2039 ∧
      (List.replicate 2038 true).length ≠ ((2039 : U16)).toNat) ∧
    2039 < (List.replicate 2040 true).length ∧
    State.reset.opnd.wbLen = 0 ∧ State.reset.opnd.wbLen ≠ 1 := by decide +kernel
theorem witness_MultipleRegistersForm :
    State.reset.busy = false ∧ ((247 : Byte)).toNat ≤ 247 ∧
    (((127 : U16)).toNat ≤ 127 ∧ (List.replicate 254 (7 : Byte)).length = 2 * ((127 : U16)).toNat) ∧
    (((0 : U16)).toNat ≤ 127 ∧ ([] : List Byte).length = 2 * ((0 : U16)).toNat) ∧
    ((List.replicate 254 (7 : Byte)).length ≤ 254 ∧ 127 < ((128 : U16)).toNat) ∧
    ((List.replicate 253 (7 : Byte)).length ≤ 254 ∧ ((127 : U16)).toNat ≤ 127 ∧
      (List.replicate 253 (7 : Byte)).length ≠ 2 * ((127 : U16)).toNat) ∧
    254 < (List.replicate 255 (7 : Byte)).length ∧
    State.reset.opnd.wLen.toNat = 2 * ((0 : U16)).toNat ∧ State.reset.opnd.wLen.toNat ≠ 2 * ((1 : U16)).toNat := by
  decide +kernel
theorem witness_BlockIntegerIsBigEndian :
    65535 < 256 ^ (2 * 1) ∧ 256 ^ (2 * 1) ≤ 65536 ∧ 1 < 2 * 1 ∧ 7 < 8 ∧ parsed.busy = false ∧
    ((247 : Byte)).toNat ≤ 247 ∧ ((127 : U16)).toNat ≤ 127 := by decide +kernel
theorem witness_ExceptionClassForm :
    parsed.busy = false ∧ ((247 : Byte)).toNat ≤ 247 ∧ ((255 : U16)).toNat ≤ 255 ∧ 255 < ((256 : U16)).toNat := by
  decide +kernel
theorem witness_UnlistedFunctionCodeIsRefused :
    parsed.busy = false ∧ ((247 : Byte)).toNat ≤ 247 ∧
    ∀ fc ∈ [(0x00 : Byte), 0x07, 0x0E, 0x11, 0x7F],
      fc.toNat = 0x00 ∨ (0x07 ≤ fc.toNat ∧ fc.toNat ≤ 0x0E) ∨ (0x11 ≤ fc.toNat ∧ fc.toNat ≤ 0x7F) := by decide +kernel
/-- A state whose `FW_DEV_ADDR` is illegal: no run reaches it (R262), and R240 checks it all the same. -/
def misaddressed : State := { State.reset with cfg := { Settings.reset with fwDevAddr := 248 } }
theorem witness_IllegalAddressIsRefused :
    misaddressed.busy = false ∧ 248 ≤ ((248 : Byte)).toNat ∧ 248 ≤ ((255 : Byte)).toNat ∧
    misaddressed.session.fwState = .idle ∧ misaddressed.cfg.fwDevAddr = 248 := by decide +kernel
theorem witness_LongOperandsAreNotLatched :
    parsed.busy = false ∧ ((247 : Byte)).toNat ≤ 247 ∧ 254 < (List.replicate 255 (0 : Byte)).length ∧
    2039 < (List.replicate 2040 true).length := by decide +kernel
theorem witness_FramesAreFunctionsOfOperands :
    ∃ t, step (given (.reqReadCoils 1 2 3) State.reset) = .next t ∧ t.tx ≠ State.reset.tx :=
  ⟨_, step_onward (by decide +kernel), by decide +kernel⟩
theorem witness_ParseResponseCommand :
    State.reset.busy = false ∧ (List.replicate 260 (0 : Byte)).length ≤ 260 ∧ 260 < (List.replicate 261 (0 : Byte)).length := by
  decide +kernel
theorem witness_HeaderAccessors :
    (withRx [1, 2]).busy = false ∧ 2 ≤ (withRx [1, 2]).rx.len.toNat ∧ (withRx [1]).rx.len.toNat < 2 ∧
    3 ≤ (withRx [1, 2, 3]).rx.len.toNat ∧ (withRx [1, 2]).rx.len.toNat < 3 := by decide +kernel
/-- The last register, none past the last, one past the last, and fewer bytes than a checksum. -/
theorem witness_RegisterAccessor :
    parsed.busy = false ∧ 2 ≤ parsed.rx.len.toNat ∧
    3 + 2 * ((1 : U16)).toNat + 2 * ((1 : U16)).toNat ≤ parsed.rx.len.toNat - 2 ∧
    3 + 2 * ((2 : U16)).toNat + 2 * ((0 : U16)).toNat ≤ parsed.rx.len.toNat - 2 ∧
    parsed.rx.len.toNat - 2 < 3 + 2 * ((2 : U16)).toNat + 2 * ((1 : U16)).toNat ∧
    (withRx [1]).rx.len.toNat < 2 ∧ (withRx [1]).busy = false := by decide +kernel
theorem witness_CoilAccessor :
    parsed.busy = false ∧ 2 ≤ parsed.rx.len.toNat ∧ 3 + ((4 : U16)).toNat ≤ parsed.rx.len.toNat - 2 ∧
    parsed.rx.len.toNat - 2 < 3 + ((5 : U16)).toNat ∧ (withRx [1]).rx.len.toNat < 2 := by decide +kernel
theorem witness_ChecksumAccessor : Inv parsed ∧ parsed.busy = false := ⟨inv_parsed, by decide +kernel⟩
theorem witness_ReadCommands :
    parsed.busy = false ∧ inSession parsed.session.fwState = false ∧ 248 ≤ ((248 : Byte)).toNat ∧
    ((247 : Byte)).toNat ≤ 247 ∧ 2 * ((127 : U16)).toNat + 5 ≤ 260 ∧ 260 < 2 * ((128 : U16)).toNat + 5 ∧
    ((255 : U16)).toNat + 5 ≤ 260 ∧ 260 < ((256 : U16)).toNat + 5 := by decide +kernel
/-- The answers of `Exchanges`: none, and as many bytes as the window takes; and a broadcast. -/
theorem witness_Exchanges :
    sending.opnd.devAddr ≠ 0 ∧ ([] : List Byte).length ≤ 11 ∧ (List.replicate 11 (0 : Byte)).length ≤ 11 ∧
    broadcasting.opnd.devAddr = 0 := by decide +kernel
theorem witness_SingleWriteCommands :
    parsed.busy = false ∧ inSession parsed.session.fwState = false ∧ 248 ≤ ((255 : Byte)).toNat ∧
    ((0 : Byte)).toNat ≤ 247 ∧ ((247 : Byte)).toNat ≤ 247 := by decide +kernel
theorem witness_MultipleWriteCommands :
    parsed.busy = false ∧ inSession parsed.session.fwState = false ∧ 248 ≤ ((248 : Byte)).toNat ∧ ((247 : Byte)).toNat ≤ 247 ∧
    127 < ((128 : U16)).toNat ∧ ((127 : U16)).toNat ≤ 127 ∧ (List.replicate 255 (0 : Byte)).length ≠ 2 * ((127 : U16)).toNat ∧
    (List.replicate 254 (0 : Byte)).length = 2 * ((127 : U16)).toNat ∧
    2039 < ((2040 : U16)).toNat ∧ ((2039 : U16)).toNat ≤ 2039 ∧ (List.replicate 2040 true).length ≠ ((2039 : U16)).toNat ∧
    (List.replicate 2039 true).length = ((2039 : U16)).toNat := by decide +kernel
theorem witness_RefusedCommandTouchesNothing :
    State.reset.busy = false ∧
    (∃ t, exec (.readCoils 1 0 256) State.reset = .next t ∧ t.busy = false) ∧
    (∃ t, exec (.writeSingleCoil 1 0 true) State.reset = .next t ∧ t.busy = true) :=
  ⟨by decide, ⟨_, exec_after (by decide +kernel), by decide +kernel⟩, ⟨_, exec_after (by decide +kernel), by decide +kernel⟩⟩
theorem witness_ExchangeStepByStep :
    let b := ran broadcasting [.takes 8]
    let w := ran sending [.takes 8]
    let full := ran sending [.takes 8, .core, .gives (List.replicate 12 1)]
    let late := ran waiting [.elapse 1000]
    let served := ran delaying [.elapse 50]
    (withMoves b [.core]).env.moves = .core :: [] ∧
    (b.phase = .tx ∧ b.tx.bytes.length ≤ b.hidden.txPos ∧ b.opnd.devAddr = 0) ∧
    (w.phase = .tx ∧ w.tx.bytes.length ≤ w.hidden.txPos ∧ w.opnd.devAddr ≠ 0) ∧
    (full.phase = .rxWait ∧ full.rx.exp.toNat ≤ full.hidden.rxAcc.length) ∧
    (late.phase = .rxWait ∧ late.hidden.windowLeft = 0) ∧
    (served.phase = .gap ∧ served.hidden.gapLeft = 0 ∧ inSession served.session.fwState = false) := by decide +kernel
theorem witness_PhaseSequence :
    (∃ s t, Inv s ∧ step s = .next t ∧ t.phase ≠ s.phase) ∧
    (∃ t, Inv parsed ∧ exec .decFc parsed = .next t ∧ t.busy = false) :=
  ⟨witness_StepKeepsInvariant, ⟨_, inv_parsed, exec_after (by decide +kernel), by decide +kernel⟩⟩
/-- Seven of the request's eight bytes. -/
theorem witness_TransmitWaitsForTransport :
    ∃ t, Inv sending ∧ sending.phase = .tx ∧ Move.resetInput ∉ [.takes 7, .core, .elapse 5] ∧
      sending.hidden.txPos + takenAtMost [.takes 7, .core, .elapse 5] < sending.tx.bytes.length ∧
      driven sending [.takes 7, .core, .elapse 5] = .next t :=
  ⟨_, inv_sending, by decide +kernel, by decide, by decide +kernel, driven_ran (by decide +kernel)⟩
/-- Ten of eleven bytes, and 999 of 1000 milliseconds. -/
theorem witness_WindowStaysOpen :
    let ms : List Move := [.elapse 999, .core, .gives (List.replicate 9 0), .core]
    ∃ t, Inv waiting ∧ waiting.phase = .rxWait ∧ Move.resetInput ∉ ms ∧ elapsedMs ms < waiting.hidden.windowLeft ∧
      waiting.hidden.rxAcc.length + (delivered ms).length < waiting.rx.exp.toNat ∧ driven waiting ms = .next t :=
  ⟨_, inv_waiting, by decide +kernel, by decide +kernel, by decide +kernel, by decide +kernel, driven_ran (by decide +kernel)⟩
/-- 49 of 50 milliseconds. -/
theorem witness_InterFrameDelayIsServed :
    (∃ s t, step s = .next t ∧ s.phase ≠ .gap ∧ t.phase = .gap) ∧
    (∃ t, Inv delaying ∧ delaying.phase = .gap ∧ Move.resetInput ∉ [.elapse 49, .core] ∧
      elapsedMs [.elapse 49, .core] < delaying.hidden.gapLeft ∧ driven delaying [.elapse 49, .core] = .next t) :=
  ⟨⟨withMoves (ran waiting [.elapse 1000]) [.core], _, step_onward (by decide +kernel), by decide +kernel, by decide +kernel⟩,
    ⟨_, inv_delaying, by decide +kernel, by decide, by decide +kernel, driven_ran (by decide +kernel)⟩⟩
theorem witness_WireCarriesRequestsInOrder :
    ∃ t, step (withMoves sending [.takes 3]) = .next t ∧ t.env.wire = [0x11, 0x03, 0x00] :=
  ⟨_, step_onward (by decide +kernel), by decide +kernel⟩
theorem witness_BusyPortAcceptsOnlyReads : sending.busy = true ∧ isRead .softReset = false ∧ isRead (.regRead 0) = true := by
  decide +kernel
theorem witness_IdleCoreDoesNothing :
    parsed.busy = false ∧ parsed.phase = .idle ∧ (withMoves parsed [.gives [1]]).env.moves = .gives [1] :: [] ∧
    (∀ p, Move.gives [1] ≠ .host p) ∧ Move.gives [1] ≠ .resetInput :=
  ⟨by decide +kernel, by decide +kernel, by decide +kernel, (by intro p h; cases h), by decide⟩
theorem witness_RegReadTable :
    ((0x34 : Byte), 0) ∈ registerTable State.reset ∧ (0x1D : Byte) ∉ (registerTable State.reset).map Prod.fst ∧
    (0x35 : Byte) ∉ (registerTable State.reset).map Prod.fst := by decide +kernel
theorem witness_BufReadTable : BuffersInv parsed ∧ 5 < ((6 : Byte)).toNat := ⟨inv_parsed.buffers, by decide⟩
theorem witness_CfgWriteCommand :
    parsed.busy = false ∧ 1 ≤ ((1 : U16)).toNat ∧ ((247 : U16)).toNat ≤ 247 ∧ 248 ≤ ((248 : U16)).toNat ∧
    2 ≤ ((2 : U16)).toNat ∧ ((0x1F : Byte)).toNat < 0x20 ∧ 0x27 < ((0x28 : Byte)).toNat := by decide +kernel
theorem witness_OnlyCfgWriteChangesSettings :
    ∃ t, step (given (.cfgWrite 0x20 10) State.reset) = .next t ∧ t.cfg ≠ State.reset.cfg :=
  ⟨_, step_onward (by decide +kernel), by decide +kernel⟩
/-- An image of `IMG_MAX` bytes, and one of a byte more, whatever `IMG_MAX` is. -/
theorem witness_FwStartCommand :
    State.reset.busy = false ∧ State.reset.session.fwState = .idle ∧ State.reset.cfg.fwDevAddr.toNat ≤ 247 ∧
    (List.replicate Config.imgMax.toNat (0 : Byte)).length ≤ Config.imgMax.toNat ∧
    Config.imgMax.toNat < (List.replicate (Config.imgMax.toNat + 1) (0 : Byte)).length ∧
    done.session.fwState ≠ .idle ∧ done.busy = false ∧
    misaddressed.session.fwState = .idle ∧ 248 ≤ misaddressed.cfg.fwDevAddr.toNat :=
  ⟨by decide, by decide, by decide, by simp, by simp, by decide +kernel, by decide +kernel, by decide, by decide⟩
theorem witness_FwStateTransitions :
    (∃ t, Inv (initialized ack) ∧ step (initialized ack) = .next t ∧ t.session.fwState ≠ (initialized ack).session.fwState) ∧
    (∃ t, Inv (committed badAck) ∧ step (committed badAck) = .next t ∧
      t.session.fwState ≠ (committed badAck).session.fwState) :=
  ⟨⟨_, inv_initialized, step_onward (by decide +kernel), by decide +kernel⟩,
    ⟨_, inv_committed, step_onward (by decide +kernel), by decide +kernel⟩⟩
/-- The last block, of one image byte. -/
theorem witness_BlockIsFetchedAndSent :
    let s := withMoves (between 1) [.core]
    let image : List Byte := List.replicate 129 0xA5
    s.busy = true ∧ s.phase = .idle ∧ s.session.fwState = .transferring ∧ s.mem = Memory.load image ∧
    s.session.imgSize.toNat = image.length ∧ s.session.blkCnt.toNat = (image.length + 127) / 128 ∧
    s.session.blkIdx.toNat < s.session.blkCnt.toNat ∧ s.env.moves = .core :: [] := by decide +kernel
theorem exchangeEnds_of {s : State} (h : s.phase = .gap ∧ s.hidden.gapLeft = 0 ∧ s.env.moves = [.core]) : ExchangeEnds s :=
  ⟨h.1, h.2.1, [], h.2.2⟩
theorem witness_InitializeEnds :
    ExchangeEnds (initialized ack) ∧ (initialized ack).env.moves = .core :: [] ∧
    (initialized ack).session.fwState = .initializing ∧ GoodAck (initialized ack).rx.bytes ∧
    ExchangeEnds (initialized badAck) ∧ (initialized badAck).cfg.fwValidateAcks = true ∧
    ¬ GoodAck (initialized badAck).rx.bytes :=
  ⟨exchangeEnds_of (by decide +kernel), by decide +kernel, by decide +kernel, by unfold GoodAck; decide +kernel,
    exchangeEnds_of (by decide +kernel), by decide +kernel, by unfold GoodAck; decide +kernel⟩
theorem witness_BlockEnds :
    ExchangeEnds (blockSent 1 ack) ∧ (blockSent 1 ack).env.moves = .core :: [] ∧
    (blockSent 1 ack).session.fwState = .transferring ∧
    GoodBlockAck (blockSent 1 ack).cfg.fwValidateAcks (blockSent 1 ack).rx.bytes ∧
    ExchangeEnds (blockSent 0 badAck) ∧
    ¬ GoodBlockAck (blockSent 0 badAck).cfg.fwValidateAcks (blockSent 0 badAck).rx.bytes :=
  ⟨exchangeEnds_of (by decide +kernel), by decide +kernel, by decide +kernel, by unfold GoodBlockAck; decide +kernel,
    exchangeEnds_of (by decide +kernel), by unfold GoodBlockAck; decide +kernel⟩
theorem witness_CommitPhase :
    (withMoves (between 2) [.core]).env.moves = .core :: [] ∧
    ((between 2).busy = true ∧ (between 2).phase = .idle ∧ (between 2).session.fwState = .transferring ∧
      (between 2).session.blkIdx = (between 2).session.blkCnt) ∧
    (committing.busy = true ∧ committing.phase = .idle ∧ committing.session.fwState = .committing) ∧
    (ExchangeEnds (committed ack) ∧ (committed ack).session.fwState = .committing ∧ GoodAck (committed ack).rx.bytes) ∧
    (ExchangeEnds (committed badAck) ∧ (committed badAck).cfg.fwValidateAcks = true ∧ ¬ GoodAck (committed badAck).rx.bytes) :=
  ⟨by decide +kernel, by decide +kernel, by decide +kernel,
    ⟨exchangeEnds_of (by decide +kernel), by decide +kernel, by unfold GoodAck; decide +kernel⟩,
    ⟨exchangeEnds_of (by decide +kernel), by decide +kernel, by unfold GoodAck; decide +kernel⟩⟩
theorem witness_FinalStatesAreAbsorbing :
    done.session.fwState = .done ∧ (∃ t, step (given .crcInit done) = .next t) ∧ (onward (committed badAck)).session.fwState = .failed :=
  ⟨by decide +kernel, ⟨_, step_onward (by decide +kernel)⟩, by decide +kernel⟩
theorem witness_BlockCountAndPadding : 0 + 1 < blockCount 129 ∧ 510 + 1 < blockCount 65536 := by decide
theorem witness_BlkIdxMoves : ∃ t, Inv (between 2) ∧ step (between 2) = .next t :=
  ⟨_, inv_between_last, step_onward (by decide +kernel)⟩
theorem witness_SessionSendsEveryFrame :
    State.reset.busy = false ∧ State.reset.session.fwState = .idle ∧ State.reset.cfg.fwDevAddr ≠ 0 ∧
    State.reset.cfg.fwDevAddr.toNat ≤ 247 ∧ (List.replicate Config.imgMax.toNat (0 : Byte)).length ≤ Config.imgMax.toNat ∧
    GoodAck ack ∧ (∀ k : Nat, GoodAck ((fun _ => ack) k)) :=
  have h : GoodAck ack := by unfold GoodAck; decide +kernel
  ⟨by decide, by decide, by decide, by decide, by simp, h, fun _ => h⟩
theorem witness_BroadcastSessionFails :
    let s := { State.reset with cfg := { Settings.reset with fwDevAddr := 0 } }
    s.busy = false ∧ s.session.fwState = .idle ∧ s.cfg.fwDevAddr = 0 ∧ s.cfg.fwValidateAcks = true ∧
    (List.replicate Config.imgMax.toNat (0 : Byte)).length ≤ Config.imgMax.toNat :=
  ⟨by decide, by decide, by decide, by decide, by simp⟩
theorem witness_ImageMemoryIsNeverWritten :
    (∃ t, step (withMoves (between 1) [.core]) = .next t) ∧ (∃ t, step (given (.fwStart []) State.reset) = .next t) :=
  ⟨⟨_, step_onward (by decide +kernel)⟩, ⟨_, step_onward (by decide +kernel)⟩⟩

end Sys2Proof.Tests
end

section
/-!
SUPPORT. The invariant `Inv` taken apart by what it speaks of: the data at rest in the registers and buffers, component by
component (`DataInv`), and where the machine stands in an exchange (`FlowInv`). One rule per operation for each part; the
obligations of the family "state" follow from them.
-/
namespace Sys2Proof.Machine

/-! ### The parts of the invariant -/

/-- `WDATA` and `WBITS` have their sizes, and their lengths stay within them (R28, R29). -/
structure Operands.Fits (o : Operands) : Prop where
  wData : o.wData.length = 254
  wLen : o.wLen.toNat ≤ 254
  wBits : o.wBits.length = 2039
  wbLen : o.wbLen.toNat ≤ 2039

/-- `TXBUF` has its size, and `TXLEN` stays within it (R30). -/
structure TxFrame.Fits (f : TxFrame) : Prop where
  buf : f.buf.length = 264
  len : f.len.toNat ≤ 264

/-- `RXBUF` has its size, `RXLEN` stays within it (R31), and the flags are those of its bytes (R35, R36). -/
structure RxFrame.Sound (f : RxFrame) : Prop where
  buf : f.buf.length = 260
  len : f.len.toNat ≤ 260
  crcOk : f.crcOk = Machine.crcOk f.bytes
  exc : f.exc = excBit f.bytes

/-- `ERRINFO` is one that `STATUS` can have (R34, R287). -/
structure Result.Legal (r : Result) : Prop where
  errInfo : r.status ≠ .exceptionResponse → r.status ≠ .protocolViolation → r.errInfo = 0
  cause : r.status = .protocolViolation → 1 ≤ r.errInfo.toNat ∧ r.errInfo.toNat ≤ 11

/-- The settings have legal values (R37, R43). -/
structure Settings.Legal (c : Settings) : Prop where
  gap : 1 ≤ c.tIfgMs.toNat
  address : c.fwDevAddr.toNat ≤ 247

/-- `BLKBUF` and `INIT_RESP` have their sizes, and `INIT_RESP_LEN` stays within its buffer (R47, R50). -/
structure Session.Fits (f : Session) : Prop where
  blkBuf : f.blkBuf.length = 128
  initResp : f.initResp.length = 8
  initRespLen : f.initRespLen.toNat ≤ 8

/-- The counters of a session agree with one another, with `FW_STATE` and with the image (R46, R66, R249, R251). -/
structure Session.Agrees (f : Session) (mem : Memory) : Prop where
  blkCnt : f.blkCnt.toNat = blockCount f.imgSize.toNat
  blkIdx : f.blkIdx.toNat ≤ f.blkCnt.toNat
  bytesDone : f.bytesDone.toNat = min (128 * f.blkIdx.toNat) f.imgSize.toNat
  initializing : f.fwState = .initializing → f.blkIdx = 0
  committing : f.fwState = .committing ∨ f.fwState = .done → f.blkIdx = f.blkCnt
  memWf : Memory.wf mem = true
  image : inSession f.fwState = true → mem.map Prod.fst = List.range f.imgSize.toNat

/-- The data at rest: what the invariant says without `BUSY`, `PHASE` and the hidden state. Each field speaks of one
component, so that an update of the state keeps the fields of the components it does not touch as they are. -/
structure DataInv (s : State) : Prop where
  opnd : s.opnd.Fits
  tx : s.tx.Fits
  rx : s.rx.Sound
  result : s.result.Legal
  cfg : s.cfg.Legal
  sessionFits : s.session.Fits
  sessionAgrees : s.session.Agrees s.mem

/-- Where the machine stands in an exchange, a block's exchange included. -/
structure FlowInv (s : State) : Prop extends ExchangeInv s where
  inBlock : s.session.fwState = .transferring → s.phase ≠ .idle → s.session.blkIdx.toNat < s.session.blkCnt.toNat

theorem inv_iff {s : State} : Inv s ↔ DataInv s ∧ FlowInv s := by
  constructor
  · intro ⟨hb, hf, hc, he, hs⟩
    exact ⟨
      { opnd := ⟨hb.wData, hb.wLen, hb.wBits, hb.wbLen⟩
        tx := ⟨hb.txBuf, hb.txLen⟩
        rx := ⟨hb.rxBuf, hb.rxLen, hf.crcOk, hf.exc⟩
        result := ⟨hf.errInfo, hf.cause⟩
        cfg := ⟨hc.gap, hc.address⟩
        sessionFits := ⟨hb.blkBuf, hb.initResp, hb.initRespLen⟩
        sessionAgrees := ⟨hs.blkCnt, hs.blkIdx, hs.bytesDone, hs.initializing, hs.committing, hs.memWf, hs.image⟩ },
      { he with inBlock := hs.inBlock }⟩
  · intro ⟨⟨ho, ht, hr, hres, hc, hfit, hagr⟩, hflow⟩
    exact {
      buffers := { ho, hfit with txBuf := ht.buf, txLen := ht.len, rxBuf := hr.buf, rxLen := hr.len }
      flags := { hr, hres with }
      settings := { hc with }
      exchange := hflow.toExchangeInv
      session := { hagr with inBlock := hflow.inBlock } }

/-! ### Operands -/

theorem Operands.Fits.latch {o : Operands} (h : o.Fits) (a fc : Byte) (reg v1 : U16) : (o.latch a fc reg v1).Fits :=
  { h with }

theorem Operands.Fits.latchData {o : Operands} (h : o.Fits) (data : List Byte) : (o.latchData data).Fits := by
  unfold Operands.latchData
  split
  · next hd =>
    simp only [Config.wDataMax] at hd
    refine { h with wData := ?_, wLen := ?_ }
    · rw [length_writeFront _ _ (by rw [h.wData]; exact hd), h.wData]
    · simp only [BitVec.toNat_ofNat]; omega
  · exact h

@[simp] theorem Operands.latchData_devAddr (o : Operands) (data : List Byte) :
    (o.latchData data).devAddr = o.devAddr := by unfold Operands.latchData; split <;> rfl
@[simp] theorem Operands.latchData_func (o : Operands) (data : List Byte) :
    (o.latchData data).func = o.func := by unfold Operands.latchData; split <;> rfl
@[simp] theorem Operands.latchData_value1 (o : Operands) (data : List Byte) :
    (o.latchData data).value1 = o.value1 := by unfold Operands.latchData; split <;> rfl

theorem Operands.Fits.latchCoils {o : Operands} (h : o.Fits) (coils : List Bool) : (o.latchCoils coils).Fits := by
  unfold Operands.latchCoils
  split
  · next hc =>
    simp only [Config.wBitsMax] at hc
    refine { h with wBits := ?_, wbLen := ?_ }
    · rw [length_writeFront _ _ (by rw [h.wBits]; exact hc), h.wBits]
    · simp only [BitVec.toNat_ofNat]; omega
  · exact h

theorem Operands.Fits.latchValue2 {o : Operands} (h : o.Fits) (fc : Byte) (v2 : Value2) : (o.latchValue2 fc v2).Fits := by
  cases v2 with
  | absent => exact h
  | data bytes => simp only [Operands.latchValue2]; split; exacts [h.latchData bytes, h]
  | coils states => simp only [Operands.latchValue2]; split; exacts [h.latchCoils states, h]

/-! ### The frame buffers -/

theorem TxFrame.Fits.store {f : TxFrame} (h : f.Fits) {frame : List Byte} (hl : frame.length ≤ 264) :
    (f.store frame).Fits where
  buf := by simp only [TxFrame.store]; rw [length_writeFront _ _ (by rw [h.buf]; exact hl), h.buf]
  len := by rw [f.store_len frame (by omega)]; exact hl

theorem TxFrame.length_bytes_le (f : TxFrame) : f.bytes.length ≤ f.len.toNat := List.length_take_le ..

theorem RxFrame.length_bytes_le (f : RxFrame) : f.bytes.length ≤ f.len.toNat := List.length_take_le ..

theorem RxFrame.Sound.store {f : RxFrame} (h : f.Sound) {r : List Byte} (hl : r.length ≤ 260) (e : U16) :
    (f.store r e).Sound where
  buf := by simp only [RxFrame.store]; rw [length_writeFront _ _ (by rw [h.buf]; exact hl), h.buf]
  len := by rw [f.store_len r e (by omega)]; exact hl
  crcOk := by rw [f.store_bytes r e (by omega), RxFrame.store_crcOk]
  exc := by rw [f.store_bytes r e (by omega), RxFrame.store_exc]

/-! ### Results -/

theorem Result.legal_ok (r : Ret) : Result.Legal ⟨.ok, 0, r⟩ := ⟨fun _ _ => rfl, nofun⟩

theorem Result.legal_violation {k : Byte} (h : 1 ≤ k.toNat ∧ k.toNat ≤ 11) (r : Ret) :
    Result.Legal ⟨.protocolViolation, k, r⟩ := ⟨fun _ hv => absurd rfl hv, fun _ => h⟩

/-- A classification has `ERRINFO` other than 0 for an exception response only, and is never a protocol violation (R283). -/
theorem Result.legal_classify (a : Byte) (n : Nat) (bs : List Byte) (r : Ret) :
    Result.Legal ⟨(classify a n bs).1, (classify a n bs).2, r⟩ := by
  unfold classify
  repeat' split
  all_goals exact ⟨by simp, by simp⟩

theorem requestCause_legal {o : Operands} {d c : Nat} {k : Byte} (h : requestCheck o d c = some k) :
    1 ≤ k.toNat ∧ k.toNat ≤ 11 := by
  rcases requestCheck_some h with rfl | rfl | rfl | rfl <;> decide

theorem arbiterCause_legal {o : Operands} {d c : Nat} {k : Byte}
    (h : (requestCheck o d c).or (sizeCheck o.func o.value1) = some k) : 1 ≤ k.toNat ∧ k.toNat ≤ 11 := by
  rcases Option.or_eq_some_iff.mp h with hr | ⟨-, hz⟩
  · exact requestCause_legal hr
  · unfold sizeCheck at hz
    split at hz <;> cases hz
    decide

theorem fwCause_legal {image : List Byte} {s : State} {k : Byte} (h : fwCheck image s = some k) :
    1 ≤ k.toNat ∧ k.toNat ≤ 11 := by
  unfold fwCheck at h
  repeat' split at h
  all_goals cases h
  all_goals decide

/-! ### Settings -/

theorem toNat_lo (v : U16) : (lo v).toNat = v.toNat % 256 := by simp [lo]

theorem Settings.Legal.writeSetting {c c' : Settings} (h : c.Legal) {number : Byte} {v : U16}
    (hw : writeSetting c number v = some c') : c'.Legal := by
  unfold Machine.writeSetting at hw
  split at hw
  case h_1 =>
    split at hw <;> cases hw
    next hv => exact { h with gap := hv }
  case h_7 =>
    split at hw <;> cases hw
    next hv => exact { h with address := by rw [toNat_lo]; omega }
  case h_8 =>
    split at hw <;> cases hw
    exact { h with }
  case h_9 => cases hw
  all_goals
    cases hw
    exact { h with }

/-! ### The session -/

theorem length_padBlock {bytes : List Byte} (h : bytes.length ≤ Config.blockSize) :
    (padBlock bytes).length = Config.blockSize := by
  simp [padBlock]; omega

theorem blockCount_le (n : Nat) : blockCount n ≤ n := by
  simp only [blockCount, Config.blockSize]; omega

/-- The counters at the start of a session (R240), for an image that its checks accept. -/
theorem Session.Agrees.startSession {image : List Byte} {s : State} (h : image.length < 2 ^ 32) :
    (startSession image s).session.Agrees (Memory.load image) := by
  have hsize : (BitVec.ofNat 32 image.length).toNat = image.length := by simp; omega
  have hcount : (BitVec.ofNat 32 (blockCount image.length)).toNat = blockCount image.length := by
    have := blockCount_le image.length
    simp; omega
  exact {
    blkCnt := by simp only [Machine.startSession, hsize, hcount]
    blkIdx := Nat.zero_le _
    bytesDone := (Nat.zero_min _).symm
    initializing := fun _ => rfl
    committing := fun hf => by rcases hf with hf | hf <;> cases hf
    memWf := Memory.load_wf image
    image := fun _ => by simp only [Machine.startSession, hsize, Memory.load_fst] }

/-- The rule for a change of `FW_STATE`. -/
theorem Session.Agrees.setFwState {f : Session} {mem : Memory} (h : f.Agrees mem) {w : FwState}
    (hinit : w ≠ .initializing) (hcommit : w = .committing ∨ w = .done → f.blkIdx = f.blkCnt)
    (himage : inSession w = true → inSession f.fwState = true) : ({ f with fwState := w } : Session).Agrees mem :=
  { h with
    initializing := fun hw => absurd hw hinit
    committing := hcommit
    image := fun hw => h.image (himage hw) }

/-- After block `k`, the image bytes of the blocks up to `k` are counted (R251). -/
theorem bytesDone_add_block (n k : Nat) :
    min (128 * k) n + blockBytesIn n k = min (128 * (k + 1)) n := by
  simp only [blockBytesIn, Config.blockSize]; omega

/-- The rule for an acknowledged block (R249, R251). -/
theorem Session.Agrees.countBlock {f : Session} {mem : Memory} (h : f.Agrees mem) (hf : f.fwState = .transferring)
    (hlt : f.blkIdx.toNat < f.blkCnt.toNat) :
    ({ f with
        bytesDone := f.bytesDone + BitVec.ofNat 32 (blockBytesIn f.imgSize.toNat f.blkIdx.toNat)
        blkIdx := f.blkIdx + 1 } : Session).Agrees mem := by
  have hidx : (f.blkIdx + 1).toNat = f.blkIdx.toNat + 1 := by
    have := f.blkCnt.isLt
    simp [BitVec.toNat_add]; omega
  refine { h with blkIdx := ?_, bytesDone := ?_, initializing := ?_, committing := ?_ }
  · rw [hidx]; exact hlt
  · have hadd := bytesDone_add_block f.imgSize.toNat f.blkIdx.toNat
    have := f.imgSize.isLt
    simp only [hidx, BitVec.toNat_add, BitVec.toNat_ofNat, h.bytesDone]
    omega
  · simp [hf]
  · simp [hf]

/-! ### Rules for the data at rest -/

namespace DataInv
variable {s : State}

theorem setOpnd (h : DataInv s) {o : Operands} (ho : o.Fits) : DataInv { s with opnd := o } := { h with opnd := ho }

theorem setSession (h : DataInv s) {f : Session} (hfit : f.Fits) (hagr : f.Agrees s.mem) :
    DataInv { s with session := f } :=
  { h with sessionFits := hfit, sessionAgrees := hagr }

theorem endOk (h : DataInv s) (r : Ret) : DataInv (endOk r s) := { h with result := Result.legal_ok r }

theorem raise (h : DataInv s) {k : Byte} (hk : 1 ≤ k.toNat ∧ k.toNat ≤ 11) : DataInv (raise k s) :=
  { h with result := Result.legal_violation hk .none }

theorem storeTx (h : DataInv s) {frame : List Byte} (hl : frame.length ≤ 264) :
    DataInv { s with tx := s.tx.store frame } := { h with tx := h.tx.store hl }

theorem storeRx (h : DataInv s) {r : List Byte} (hl : r.length ≤ 260) (e : U16) :
    DataInv { s with rx := s.rx.store r e } := { h with rx := h.rx.store hl e }

theorem sendRequest (h : DataInv s) (hl : s.opnd.frame.length ≤ 264) : DataInv (sendRequest s) :=
  { h.storeTx hl with }

theorem closeWindow (h : DataInv s) {r : List Byte} (hl : r.length ≤ 260) (e : U16) : DataInv (closeWindow r e s) :=
  { h.storeRx hl e with }

theorem openWindow (h : DataInv s) : DataInv (openWindow s) := { h with rx := { h.rx with } }

theorem endExchange (h : DataInv s) : DataInv (endExchange s) :=
  { h with result := Result.legal_classify _ _ _ _ }

theorem finish (h : DataInv s) (r : Ret) : DataInv (finish r s) := { h with result := { h.result with } }

theorem endSession (h : DataInv s) {w : FwState} (hw : w = .failed ∨ w = .done ∧ s.session.blkIdx = s.session.blkCnt) :
    DataInv (endSession w s) := by
  refine { h with result := { h.result with }, sessionFits := { h.sessionFits with }, sessionAgrees := ?_ }
  rcases hw with rfl | ⟨rfl, hidx⟩
  · exact h.sessionAgrees.setFwState nofun nofun nofun
  · exact h.sessionAgrees.setFwState nofun (fun _ => hidx) nofun

/-- Every component has its reset value (R321). -/
theorem reset : DataInv State.reset where
  opnd := ⟨List.length_replicate, by decide, List.length_replicate, by decide⟩
  tx := ⟨List.length_replicate, by decide⟩
  rx := ⟨List.length_replicate, by decide, rfl, rfl⟩
  result := Result.legal_ok .none
  cfg := ⟨by decide, by decide⟩
  sessionFits := ⟨List.length_replicate, List.length_replicate, by decide⟩
  sessionAgrees := ⟨by decide, by decide, by decide, fun _ => rfl, fun _ => rfl, rfl, nofun⟩

/-- A reset leaves the image memory as it is (R323), and no session is left that would need it. -/
theorem resetBlock (h : Memory.wf s.mem = true) : DataInv (resetBlock s) :=
  { reset with sessionAgrees := { reset.sessionAgrees with memWf := h, image := nofun } }

theorem transportTakes (h : DataInv s) (k : Nat) : DataInv (transportTakes k s) := by
  unfold Machine.transportTakes
  split
  · exact { h with }
  all_goals exact h

theorem transportGives (h : DataInv s) (bs : List Byte) : DataInv (transportGives bs s) := by
  unfold Machine.transportGives
  split
  · exact { h with }
  all_goals exact h

theorem timeElapses (h : DataInv s) (ms : Nat) : DataInv (timeElapses ms s) := by
  unfold Machine.timeElapses
  split
  case h_1 | h_2 => exact { h with }
  all_goals exact h

end DataInv

/-! ### Rules for the exchange -/

/-- No command is in progress. -/
theorem flowInv_atRest {s : State} (hb : s.busy = false) (hp : s.phase = .idle) (hf : inSession s.session.fwState = false) :
    FlowInv s := by
  constructor
  · constructor <;> simp [hb, hp, hf]
  · simp [hp]

/-- A session is between two of its exchanges. -/
theorem flowInv_between {s : State} (hb : s.busy = true) (hp : s.phase = .idle)
    (hf : s.session.fwState = .transferring ∨ s.session.fwState = .committing) : FlowInv s := by
  constructor
  · constructor <;> simp [hb, hp, hf]
  · simp [hp]

/-- An exchange begins (R202), for operands that pass the checks of a request. -/
theorem flowInv_sendRequest {s : State} {d c : Nat} (hreq : requestCheck s.opnd d c = none)
    (hn : expectedLength s.opnd.func s.opnd.value1 ≤ 260)
    (h8 : inSession s.session.fwState = true → expectedLength s.opnd.func s.opnd.value1 = 8)
    (hblk : s.session.fwState = .transferring → s.session.blkIdx.toNat < s.session.blkCnt.toNat) :
    FlowInv (sendRequest s) := by
  have hfit := frame_fits hreq
  exact {
    idle := nofun
    between := nofun
    address := fun _ => (requestCheck_none hreq).1
    frame := fun _ => s.tx.store_bytes s.opnd.frame (by omega)
    handed := fun _ => Nat.zero_le _
    size := fun _ => hn
    sizeInSession := fun _ => h8
    window := nofun
    windowInSession := nofun
    gapInSession := nofun
    inBlock := fun hf _ => hblk hf }

namespace FlowInv
variable {s : State}

/-- During an exchange `BUSY` is 1. -/
theorem busy_of_phase (h : FlowInv s) (hp : s.phase ≠ .idle) : s.busy = true := by
  cases hb : s.busy with
  | true => rfl
  | false => exact absurd (h.idle hb).1 hp

theorem openWindow (h : FlowInv s) (hp : s.phase = .tx) : FlowInv (openWindow s) := by
  have hne : s.phase ≠ .idle := by simp [hp]
  have hexp : (BitVec.ofNat 16 (expectedLength s.opnd.func s.opnd.value1)).toNat
      = expectedLength s.opnd.func s.opnd.value1 := by
    have := h.size hp
    simp; omega
  exact {
    idle := fun hb => absurd (h.busy_of_phase hne) (by simpa using hb)
    between := nofun
    address := fun _ => h.address hne
    frame := fun _ => h.frame hne
    handed := nofun
    size := nofun
    sizeInSession := nofun
    window := fun _ => ⟨hexp.trans_le (h.size hp), Nat.zero_le _⟩
    windowInSession := fun _ hf => hexp.trans (h.sizeInSession hp hf)
    gapInSession := nofun
    inBlock := fun hf _ => h.inBlock hf hne }

theorem closeWindow (h : FlowInv s) (hp : s.phase ≠ .idle) {r : List Byte} (hl : r.length ≤ 260)
    (h8 : inSession s.session.fwState = true → r.length ≤ 8) (e : U16) : FlowInv (closeWindow r e s) where
  idle hb := absurd (h.busy_of_phase hp) (by simpa using hb)
  between := nofun
  address _ := h.address hp
  frame _ := h.frame hp
  handed := nofun
  size := nofun
  sizeInSession := nofun
  window := nofun
  windowInSession := nofun
  gapInSession _ hf := by rw [closeWindow_rx, s.rx.store_len r e (by omega)]; exact h8 hf
  inBlock hf _ := h.inBlock hf hp

theorem transportTakes (h : FlowInv s) (k : Nat) : FlowInv (transportTakes k s) := by
  unfold Machine.transportTakes
  split
  case h_1 hp =>
    refine { h with handed := fun _ => ?_, window := ?_ }
    · have := h.handed hp
      have := s.tx.length_bytes_le
      simp only [List.length_take, List.length_drop]
      omega
    · simp [hp]
  all_goals exact h

theorem transportGives (h : FlowInv s) (bs : List Byte) : FlowInv (transportGives bs s) := by
  unfold Machine.transportGives
  split
  case h_1 hp =>
    refine { h with window := fun _ => ?_ }
    obtain ⟨hexp, hacc⟩ := h.window hp
    simp only [List.length_append, List.length_take]
    omega
  all_goals exact h

theorem timeElapses (h : FlowInv s) (ms : Nat) : FlowInv (timeElapses ms s) := by
  unfold Machine.timeElapses
  split
  case h_1 | h_2 => exact { h with }
  all_goals exact h

end FlowInv

/-! ### The invariant under the operations -/

namespace Inv
variable {s t : State}

theorem data (h : Inv s) : DataInv s := (inv_iff.mp h).1
theorem flow (h : Inv s) : FlowInv s := (inv_iff.mp h).2

/-- The schedule is no part of the invariant. -/
theorem withMoves (h : Inv s) (ms : List Move) : Inv (withMoves s ms) :=
  inv_iff.mpr ⟨{ h.data with }, { h.flow with }⟩

/-- A command that waits for `BUSY = 0` (R111) keeps the invariant when its effect does. -/
theorem whenIdle {f : State → State} (h : Inv s)
    (he : whenIdle s (fun s => .next (f s)) = .next t) (hf : s.busy = false → Inv (f s)) : Inv t := by
  rcases whenIdle_next he with ⟨-, rfl⟩ | ⟨hb, rfl⟩
  exacts [h, hf hb]

/-- A command that ends at once leaves the machine at rest. -/
theorem ofCommandEnd (h : Inv s) (hb : s.busy = false) (hd : DataInv t) (hb' : t.busy = false)
    (hp : t.phase = s.phase) (hf : t.session.fwState = s.session.fwState) : Inv t := by
  obtain ⟨hphase, hsession⟩ := h.exchange.idle hb
  exact inv_iff.mpr ⟨hd, flowInv_atRest hb' (hp.trans hphase) (hf ▸ hsession)⟩

theorem setCrc (h : Inv s) (c : U16) : Inv { s with crc := c } := inv_iff.mpr ⟨{ h.data with }, { h.flow with }⟩

theorem returnOnly (h : Inv s) (r : Ret) : Inv (returnOnly r s) :=
  inv_iff.mpr ⟨{ h.data with result := { h.data.result with } }, { h.flow with }⟩

theorem endOk (h : Inv s) (hb : s.busy = false) (r : Ret) : Inv (endOk r s) :=
  h.ofCommandEnd hb (h.data.endOk r) rfl rfl rfl

theorem raise (h : Inv s) (hb : s.busy = false) {k : Byte} (hk : 1 ≤ k.toNat ∧ k.toNat ≤ 11) : Inv (raise k s) :=
  h.ofCommandEnd hb (h.data.raise hk) rfl rfl rfl

theorem resetBlock (h : Inv s) : Inv (resetBlock s) :=
  inv_iff.mpr ⟨.resetBlock h.session.memWf, flowInv_atRest rfl rfl rfl⟩

theorem accessor (h : Inv s) (hb : s.busy = false) (inside : Prop) [Decidable inside] (r : Ret) :
    Inv (accessor inside r s) := by
  rcases accessor_cases inside r s with ⟨-, e⟩ | ⟨-, e⟩ <;> rw [e]
  · exact h.endOk hb r
  · exact h.raise hb (by decide)

theorem buildRequestOp (h : Inv s) (hb : s.busy = false) (a fc : Byte) (reg v1 : U16) (v2 : Value2) :
    Inv (buildRequestOp a fc reg v1 v2 s) := by
  have hd := h.data.setOpnd ((h.data.opnd.latch a fc reg v1).latchValue2 fc v2)
  rcases buildRequestOp_cases a fc reg v1 v2 s with ⟨k, hk, e⟩ | ⟨-, hl, e⟩ <;> rw [e]
  · exact h.ofCommandEnd hb (hd.raise (requestCause_legal hk)) rfl rfl rfl
  · exact h.ofCommandEnd hb ((hd.storeTx hl).endOk _) rfl rfl rfl

theorem arbiterOp (h : Inv s) (hb : s.busy = false) {o : Operands} (ho : o.Fits) (d c : Nat) :
    Inv (arbiterOp o d c s) := by
  have hd := h.data.setOpnd ho
  rcases arbiterOp_cases o d c s with ⟨k, hk, e⟩ | ⟨hreq, hn, hl, e⟩ <;> rw [e]
  · exact h.ofCommandEnd hb (hd.raise (arbiterCause_legal hk)) rfl rfl rfl
  · have hf : inSession s.session.fwState = false := (h.exchange.idle hb).2
    have hne : s.session.fwState ≠ .transferring := by intro hs; simp [hs, inSession] at hf
    exact inv_iff.mpr ⟨hd.sendRequest hl, flowInv_sendRequest (s := { s with opnd := o }) hreq hn
      (fun hs => by simp [hf] at hs) (fun hs => absurd hs hne)⟩

theorem parseResponse (h : Inv s) {bytes : List Byte} (he : execParseResponse bytes s = .next t) : Inv t := by
  refine h.whenIdle he fun hb => ?_
  by_cases hl : bytes.length ≤ Config.rxMax
  · rw [if_neg (Nat.not_lt.mpr hl)]
    exact h.ofCommandEnd hb ((h.data.storeRx hl 0).endOk _) rfl rfl rfl
  · rw [if_pos (Nat.not_le.mp hl)]
    exact h.raise hb (by decide)

theorem cfgWrite (h : Inv s) {number : Byte} {v : U16} (he : execCfgWrite number v s = .next t) : Inv t := by
  refine h.whenIdle he fun hb => ?_
  cases hw : writeSetting s.cfg number v with
  | none => exact h.raise hb (by decide)
  | some c =>
    have hd : DataInv { s with cfg := c } := { h.data with cfg := h.data.cfg.writeSetting hw }
    exact h.ofCommandEnd hb (hd.endOk .none) rfl rfl rfl

end Inv

/-! ### The session's exchanges -/

theorem requestCheck_latch_magic (o : Operands) {a : Byte} (ha : a.toNat ≤ 247) (reg v1 : U16) :
    requestCheck (o.latch a 0x06 reg v1) 0 0 = none := by
  have : ¬ a.toNat ≥ 248 := by omega
  simp [requestCheck, Operands.latch, this, funcClass, shapeCheck]

/-- An exchange that writes `FW_MAGIC` begins (R244, R254). -/
theorem inv_sendMagic {s : State} (h : DataInv s) (hf : s.session.fwState ≠ .transferring) (reg : U16) :
    Inv (sendMagic reg s) := by
  have hreq := requestCheck_latch_magic s.opnd h.cfg.address reg Config.fwMagic
  have hn : expectedLength 0x06 Config.fwMagic = 8 := rfl
  exact inv_iff.mpr ⟨(h.setOpnd (h.opnd.latch _ _ _ _)).sendRequest (frame_fits hreq),
    flowInv_sendRequest hreq (hn.trans_le (by decide)) (fun _ => hn) (fun hs => absurd hs hf)⟩

theorem fwCheck_none {image : List Byte} {s : State} (h : fwCheck image s = none) : image.length ≤ Config.imgMax.toNat := by
  unfold fwCheck at h
  split_ifs at h with _ _ hlen
  exact Nat.le_of_not_lt hlen

theorem Inv.fwStart {s t : State} (h : Inv s) {image : List Byte} (he : execFwStart image s = .next t) : Inv t := by
  refine h.whenIdle he fun hb => ?_
  rcases endChecked_cases (fwCheck image s) s (fun s => sendMagic s.cfg.regUpdInit (startSession image s))
    with ⟨k, hk, e⟩ | ⟨hk, e⟩ <;> rw [e]
  · exact h.raise hb (fwCause_legal hk)
  · have hlen : image.length < 2 ^ 32 := (fwCheck_none hk).trans_lt Config.imgMax.isLt
    have hd : DataInv (startSession image s) :=
      { h.data with
        sessionFits := { h.data.sessionFits with initRespLen := Nat.zero_le _ }
        sessionAgrees := .startSession hlen }
    exact inv_sendMagic hd nofun _

/-- The operand registers of a block's request (R247). -/
def blockOperands (s : State) : Operands :=
  (s.opnd.latch s.cfg.fwDevAddr 0x10 s.cfg.regBlkUpload (BitVec.ofNat 16 (Config.blockSize / 2))).latchData
    s.session.blkBuf

theorem sendBlock_eq (s : State) : sendBlock s = sendRequest { s with opnd := blockOperands s } := rfl

theorem requestCheck_blockOperands {s : State} (h : s.cfg.fwDevAddr.toNat ≤ 247) :
    requestCheck (blockOperands s) Config.blockSize 0 = none := by
  have : ¬ s.cfg.fwDevAddr.toNat ≥ 248 := by omega
  simp [requestCheck, blockOperands, Operands.latch, this, funcClass, shapeCheck, Config.blockSize]

theorem expectedLength_blockOperands (s : State) :
    expectedLength (blockOperands s).func (blockOperands s).value1 = 8 := by
  simp [blockOperands, Operands.latch, expectedLength]

/-- The exchange of a block begins (R247). -/
theorem inv_sendBlock {s : State} (h : DataInv s) (hlt : s.session.blkIdx.toNat < s.session.blkCnt.toNat) :
    Inv (sendBlock s) := by
  have hreq := requestCheck_blockOperands h.cfg.address
  have hn := expectedLength_blockOperands s
  rw [sendBlock_eq]
  exact inv_iff.mpr ⟨(h.setOpnd ((h.opnd.latch _ _ _ _).latchData _)).sendRequest (frame_fits hreq),
    flowInv_sendRequest (s := { s with opnd := blockOperands s }) hreq (hn.trans_le (by decide)) (fun _ => hn)
      (fun _ => hlt)⟩

/-- A session ends, and the machine is at rest. -/
theorem inv_endSession {s : State} (h : DataInv s) (hp : s.phase = .idle) {w : FwState}
    (hw : w = .failed ∨ w = .done ∧ s.session.blkIdx = s.session.blkCnt) : Inv (endSession w s) := by
  refine inv_iff.mpr ⟨h.endSession hw, flowInv_atRest rfl hp ?_⟩
  rcases hw with rfl | ⟨rfl, -⟩ <;> rfl

/-! ### The end of an exchange

Each rule speaks of a state whose exchange has just been classified: `PHASE` is `IDLE`, `BUSY` still 1. -/

theorem inv_afterInitialize {s : State} (h : DataInv s) (hb : s.busy = true) (hp : s.phase = .idle)
    (hf : s.session.fwState = .initializing) (hr : s.rx.bytes.length ≤ 8) : Inv (afterInitialize s) := by
  have hd := h.setSession (f := { s.session with
      initResp := writeFront s.session.initResp s.rx.bytes, initRespLen := BitVec.ofNat 4 s.rx.bytes.length })
    { h.sessionFits with
      initResp := by rw [length_writeFront _ _ (by rw [h.sessionFits.initResp]; exact hr), h.sessionFits.initResp]
      initRespLen := by simp only [BitVec.toNat_ofNat]; omega }
    { h.sessionAgrees with }
  unfold afterInitialize
  dsimp only
  split
  · exact inv_endSession hd hp (.inl rfl)
  · refine inv_iff.mpr ⟨hd.setSession { hd.sessionFits with } ?_, flowInv_between hb hp (.inl rfl)⟩
    exact hd.sessionAgrees.setFwState nofun nofun (fun _ => by rw [hf]; rfl)

theorem inv_afterBlock {s : State} (h : DataInv s) (hb : s.busy = true) (hp : s.phase = .idle)
    (hf : s.session.fwState = .transferring) (hlt : s.session.blkIdx.toNat < s.session.blkCnt.toNat) :
    Inv (afterBlock s) := by
  unfold afterBlock
  split
  · exact inv_iff.mpr ⟨h.setSession { h.sessionFits with } (h.sessionAgrees.countBlock hf hlt),
      flowInv_between hb hp (.inl hf)⟩
  · exact inv_endSession h hp (.inl rfl)

theorem inv_afterCommit {s : State} (h : DataInv s) (hp : s.phase = .idle) (hf : s.session.fwState = .committing) :
    Inv (afterCommit s) := by
  have hd : DataInv { s with
      session := { s.session with commitElapsedMs := Config.commitElapsedMs s.env.draws }
      env := { s.env with draws := s.env.draws + 1 } } :=
    { h with sessionFits := { h.sessionFits with }, sessionAgrees := { h.sessionAgrees with } }
  unfold afterCommit
  split
  · exact inv_endSession hd hp (.inl rfl)
  · exact inv_endSession hd hp (.inr ⟨rfl, h.sessionAgrees.committing (.inl hf)⟩)

theorem inv_finish {s : State} (h : DataInv s) (hp : s.phase = .idle) (hf : inSession s.session.fwState = false) (r : Ret) :
    Inv (finish r s) := inv_iff.mpr ⟨h.finish r, flowInv_atRest rfl hp hf⟩

theorem Inv.endOfExchange {s : State} (h : Inv s) (hp : s.phase = .gap) : Inv (afterExchange (endExchange s)) := by
  have hne : s.phase ≠ .idle := by simp [hp]
  have hb : (endExchange s).busy = true := h.flow.busy_of_phase hne
  have hd := h.data.endExchange
  have hr (hf : inSession s.session.fwState = true) : s.rx.bytes.length ≤ 8 :=
    s.rx.length_bytes_le.trans (h.exchange.gapInSession hp hf)
  unfold afterExchange
  cases hf : (endExchange s).session.fwState with
  | initializing => exact inv_afterInitialize hd hb rfl hf (hr (by simp at hf; rw [hf]; rfl))
  | transferring => exact inv_afterBlock hd hb rfl hf (h.flow.inBlock hf hne)
  | committing => exact inv_afterCommit hd rfl hf
  | idle | done | failed => exact inv_finish hd rfl (by rw [hf]; rfl) _

/-! ### Every step keeps the invariant -/

theorem Inv.afterTransmit {s : State} (h : Inv s) (hp : s.phase = .tx) : Inv (afterTransmit s) := by
  unfold Machine.afterTransmit
  split
  · exact inv_iff.mpr ⟨h.data.closeWindow (Nat.zero_le _) 0,
      h.flow.closeWindow (by simp [hp]) (Nat.zero_le _) (fun _ => Nat.zero_le _) 0⟩
  · exact inv_iff.mpr ⟨h.data.openWindow, h.flow.openWindow hp⟩

/-- The window closes with what it collected (R205). -/
theorem Inv.closeWindow {s : State} (h : Inv s) (hp : s.phase = .rxWait) :
    Inv (closeWindow s.hidden.rxAcc s.rx.exp s) := by
  obtain ⟨hexp, hacc⟩ := h.exchange.window hp
  have hl := hacc.trans hexp
  exact inv_iff.mpr ⟨h.data.closeWindow hl _, h.flow.closeWindow (by simp [hp]) hl
    (fun hf => hacc.trans (h.exchange.windowInSession hp hf).le) _⟩

theorem DataInv.fetchBlock {s s1 : State} (h : DataInv s) (hf : fetchBlock s = some s1) :
    DataInv s1 ∧ s1.session.blkIdx = s.session.blkIdx ∧ s1.session.blkCnt = s.session.blkCnt := by
  obtain ⟨bs, hl, rfl⟩ := fetchBlock_some hf
  have hpad : (padBlock bs).length = 128 := length_padBlock (by rw [hl]; exact Nat.min_le_left _ _)
  exact ⟨h.setSession { h.sessionFits with blkBuf := hpad } { h.sessionAgrees with }, rfl, rfl⟩

theorem Inv.coreMove {s t : State} (h : Inv s) (he : coreMove s = .next t) : Inv t := by
  rcases coreMove_cases he with rfl | ⟨hp, -, rfl⟩ | ⟨hp, -, rfl⟩ | ⟨hp, -, rfl⟩ | ⟨-, -, -, hlt, s1, h1, rfl⟩ |
    ⟨hp, hb, hf, hge, rfl⟩ | ⟨-, -, hf, rfl⟩
  · exact h
  · exact h.afterTransmit hp
  · exact h.closeWindow hp
  · exact h.endOfExchange hp
  · obtain ⟨hd, hidx, hcnt⟩ := h.data.fetchBlock h1
    exact inv_sendBlock hd (by rw [hidx, hcnt]; exact hlt)
  · have hall : s.session.blkIdx = s.session.blkCnt :=
      BitVec.eq_of_toNat_eq (Nat.le_antisymm h.session.blkIdx (Nat.le_of_not_lt hge))
    exact inv_iff.mpr ⟨h.data.setSession { h.data.sessionFits with }
      (h.data.sessionAgrees.setFwState nofun (fun _ => hall) (fun _ => by rw [hf]; rfl)),
      flowInv_between hb hp (.inr rfl)⟩
  · exact inv_sendMagic h.data (by simp [hf]) _

theorem Inv.exec {s t : State} (h : Inv s) {i : Instr} (he : exec i s = .next t) : Inv t := by
  have latched a fc reg v1 := h.data.opnd.latch a fc reg v1
  cases i with simp only [Machine.exec] at he
  | crcInit => exact h.whenIdle he fun hb => (h.setCrc crcSeed).endOk hb _
  | crcByte b => exact h.whenIdle he fun hb => (h.setCrc (crcByte s.crc b)).endOk hb _
  | buildRequest | reqReadCoils | reqReadDiscreteInputs | reqReadHoldingRegisters | reqReadInputRegisters
  | reqWriteSingleCoil | reqWriteSingleRegister | reqWriteMultipleCoils | reqWriteMultipleRegisters
  | reqExceptionClass => exact h.whenIdle he fun hb => h.buildRequestOp hb ..
  | parseResponse => exact h.parseResponse he
  | decFc | decErrbc | decRegs | decCoils => exact h.whenIdle he fun hb => h.accessor hb ..
  | decCrcok => exact h.whenIdle he fun hb => h.endOk hb _
  | readHoldingRegisters | readCoils | writeSingleRegister | writeSingleCoil =>
    exact h.whenIdle he fun hb => h.arbiterOp hb (latched ..) ..
  | writeMultipleRegisters => exact h.whenIdle he fun hb => h.arbiterOp hb ((latched ..).latchData _) ..
  | writeMultipleCoils => exact h.whenIdle he fun hb => h.arbiterOp hb ((latched ..).latchCoils _) ..
  | fwStart => exact h.fwStart he
  | cfgWrite => exact h.cfgWrite he
  | regRead | bufRead => cases he; exact h.returnOnly _
  | softReset => exact h.whenIdle he fun _ => h.resetBlock.endOk rfl _

theorem Inv.step {s t : State} (h : Inv s) (he : step s = .next t) : Inv t := by
  rcases step_cases he with ⟨-, rfl⟩ | ⟨m, rest, -, hm⟩
  · exact h
  have h' := h.withMoves rest
  rcases hm with ⟨p, i, -, -, hi⟩ | ⟨p, op, -, -, hi⟩ | ⟨p, e, a, fc, reg, v1, v2, -, -, hi⟩ | ⟨-, rfl⟩ | ⟨-, hc⟩ |
    ⟨k, -, rfl⟩ | ⟨bs, -, rfl⟩ | ⟨ms, -, rfl⟩
  · exact h'.exec hi
  · exact h'.whenIdle hi fun hb => h'.raise hb (by decide)
  · exact h'.exec hi
  · exact h'.resetBlock
  · exact h'.coreMove hc
  · exact inv_iff.mpr ⟨h'.data.transportTakes k, h'.flow.transportTakes k⟩
  · exact inv_iff.mpr ⟨h'.data.transportGives bs, h'.flow.transportGives bs⟩
  · exact inv_iff.mpr ⟨h'.data.timeElapses ms, h'.flow.timeElapses ms⟩

end Sys2Proof.Machine

open Sys2Proof Sys2Proof.Machine

/-- Settles O2: reset gives every component its reset value, and the machine is at rest. -/
theorem resetMeetsInvariant : Obligations.ResetMeetsInvariant :=
  inv_iff.mpr ⟨.reset, flowInv_atRest rfl rfl rfl⟩

/-- Settles O3, by cases over the moves of the schedule; each operation keeps the data at rest and its place in an
exchange. -/
theorem stepKeepsInvariant : Obligations.StepKeepsInvariant := fun _ _ => Inv.step

end

section
/-!
SUPPORT. `CRC` is used by its own commands only (10_state.md R21): the operations of the other commands commute with a change
of `CRC`, which says both that they do not depend on it and that they leave it as it is.
-/
namespace Sys2Proof.Machine

/-! ### Operations that do not use `CRC` -/

/-- Started with another value in `CRC`, `f` does the same and leaves that value. -/
def SparesCrc (f : State → State) : Prop := ∀ (s : State) (c : U16), f { s with crc := c } = { f s with crc := c }

theorem SparesCrc.crc_eq {f : State → State} (h : SparesCrc f) (s : State) : (f s).crc = s.crc := by
  have hcrc := congrArg State.crc (h s s.crc)
  exact hcrc

/-- A command that waits for `BUSY = 0` does not use `CRC` when its effect does not. -/
theorem SparesCrc.whenIdle {f : State → State} (h : SparesCrc f) {s t : State} (c : U16)
    (he : whenIdle s (fun s => .next (f s)) = .next t) :
    t.crc = s.crc ∧ whenIdle { s with crc := c } (fun s => .next (f s)) = .next { t with crc := c } := by
  rcases whenIdle_next he with ⟨hb, rfl⟩ | ⟨hb, rfl⟩
  · exact ⟨rfl, whenIdle_busy (s := { t with crc := c }) hb _⟩
  · exact ⟨h.crc_eq s, by rw [whenIdle_idle (s := { s with crc := c }) hb, h s c]⟩

theorem endChecked_setCrc (check : Option Byte) (s : State) {ok : State → State} (h : SparesCrc ok) (c : U16) :
    endChecked check { s with crc := c } ok = { endChecked check s ok with crc := c } := by
  cases check with
  | none => exact h s c
  | some k => rfl

theorem sparesCrc_endOk (r : Ret) : SparesCrc (endOk r) := fun _ _ => rfl

theorem sparesCrc_sendRequest : SparesCrc sendRequest := fun _ _ => rfl

theorem accessor_setCrc (inside : Prop) [Decidable inside] (r : Ret) (s : State) (c : U16) :
    accessor inside r { s with crc := c } = { accessor inside r s with crc := c } :=
  endChecked_setCrc _ s (sparesCrc_endOk r) c

theorem arbiterOp_setCrc (o : Operands) (d n : Nat) (s : State) (c : U16) :
    arbiterOp o d n { s with crc := c } = { arbiterOp o d n s with crc := c } :=
  endChecked_setCrc _ { s with opnd := o } sparesCrc_sendRequest c

theorem sparesCrc_buildRequestOp (a fc : Byte) (reg v1 : U16) (v2 : Value2) :
    SparesCrc (buildRequestOp a fc reg v1 v2) := fun s c =>
  endChecked_setCrc (ok := fun s => endOk (.word (buildFrame s).tx.len) (buildFrame s)) _
    { s with opnd := (s.opnd.latch a fc reg v1).latchValue2 fc v2 } (fun _ _ => rfl) c

/-- R21: the commands other than `CRC_INIT`, `CRC_BYTE`, `REG_READ` and `SOFT_RESET` neither depend on `CRC` nor change it. -/
theorem exec_setCrc {i : Instr} {s t : State} (c : U16) (hinit : i ≠ .crcInit) (hbyte : ∀ b, i ≠ .crcByte b)
    (hread : ∀ n, i ≠ .regRead n) (hreset : i ≠ .softReset) (he : exec i s = .next t) :
    t.crc = s.crc ∧ exec i { s with crc := c } = .next { t with crc := c } := by
  cases i with simp only [exec] at he ⊢
  | crcInit => exact absurd rfl hinit
  | crcByte b => exact absurd rfl (hbyte b)
  | regRead n => exact absurd rfl (hread n)
  | softReset => exact absurd rfl hreset
  | bufRead => cases he; exact ⟨rfl, rfl⟩
  | buildRequest | reqReadCoils | reqReadDiscreteInputs | reqReadHoldingRegisters | reqReadInputRegisters
  | reqWriteSingleCoil | reqWriteSingleRegister | reqWriteMultipleCoils | reqWriteMultipleRegisters
  | reqExceptionClass => exact SparesCrc.whenIdle (sparesCrc_buildRequestOp _ _ _ _ _) c he
  | parseResponse => exact SparesCrc.whenIdle (fun s => endChecked_setCrc _ s fun _ _ => rfl) c he
  | decFc | decErrbc | decRegs | decCoils => exact SparesCrc.whenIdle (accessor_setCrc _ _) c he
  | decCrcok => exact SparesCrc.whenIdle (fun _ _ => rfl) c he
  | readHoldingRegisters | readCoils | writeSingleRegister | writeSingleCoil | writeMultipleRegisters
  | writeMultipleCoils => exact SparesCrc.whenIdle (fun s => arbiterOp_setCrc _ _ _ s) c he
  | fwStart image =>
    exact SparesCrc.whenIdle (fun s => endChecked_setCrc (fwCheck image s) s fun _ _ => rfl) c he
  | cfgWrite number v =>
    refine SparesCrc.whenIdle (fun s c => ?_) c he
    cases writeSetting s.cfg number v <;> rfl

/-! ### `CRC` over a step -/

theorem exec_crc {i : Instr} {s t : State} (hinit : i ≠ .crcInit) (hbyte : ∀ b, i ≠ .crcByte b)
    (hreset : i ≠ .softReset) (he : exec i s = .next t) : t.crc = s.crc := by
  by_cases hread : ∃ n, i = .regRead n
  · obtain ⟨n, rfl⟩ := hread
    cases he
    rfl
  · exact (exec_setCrc s.crc hinit hbyte (fun n hn => hread ⟨n, hn⟩) hreset he).1

theorem afterTransmit_crc (s : State) : (afterTransmit s).crc = s.crc := by
  unfold afterTransmit; split <;> rfl

theorem afterExchange_crc (s : State) : (afterExchange s).crc = s.crc := by
  unfold afterExchange
  split
  · unfold afterInitialize; dsimp only; split <;> rfl
  · unfold afterBlock; split <;> rfl
  · unfold afterCommit; dsimp only; split <;> rfl
  all_goals rfl

theorem coreMove_crc {s t : State} (h : coreMove s = .next t) : t.crc = s.crc := by
  rcases coreMove_cases h with rfl | ⟨-, -, rfl⟩ | ⟨-, -, rfl⟩ | ⟨-, -, rfl⟩ | ⟨-, -, -, -, s1, h1, rfl⟩ |
    ⟨-, -, -, -, rfl⟩ | ⟨-, -, -, rfl⟩
  · rfl
  · exact afterTransmit_crc s
  · rfl
  · exact afterExchange_crc (endExchange s)
  · obtain ⟨_, -, rfl⟩ := fetchBlock_some h1
    rfl
  · rfl
  · rfl

theorem transportTakes_crc (k : Nat) (s : State) : (transportTakes k s).crc = s.crc := by
  unfold transportTakes; split <;> rfl

theorem transportGives_crc (bs : List Byte) (s : State) : (transportGives bs s).crc = s.crc := by
  unfold transportGives; split <;> rfl

theorem timeElapses_crc (ms : Nat) (s : State) : (timeElapses ms s).crc = s.crc := by
  unfold timeElapses; split <;> rfl

/-- R21: a step that changes `CRC` is `CRC_INIT`, `CRC_BYTE` or a reset. -/
theorem step_changes_crc {s t : State} (h : step s = .next t) (hne : t.crc ≠ s.crc) :
    Presents s .crcInit ∨ (∃ b, Presents s (.crcByte b)) ∨ ResetNext s := by
  rcases step_cases h with ⟨-, rfl⟩ | ⟨m, rest, hm, hmove⟩
  · exact absurd rfl hne
  replace hne : t.crc ≠ (withMoves s rest).crc := hne
  rcases hmove with ⟨p, i, rfl, hp, hi⟩ | ⟨p, op, -, -, hi⟩ | ⟨p, e, a, fc, reg, v1, v2, -, -, hi⟩ | ⟨rfl, -⟩ |
    ⟨-, hc⟩ | ⟨k, -, rfl⟩ | ⟨bs, -, rfl⟩ | ⟨ms, -, rfl⟩
  · by_contra hnot
    push Not at hnot
    obtain ⟨hinit, hbyte, hreset⟩ := hnot
    refine hne (exec_crc ?_ ?_ ?_ hi)
    · rintro rfl; exact hinit ⟨p, rest, hm, hp⟩
    · rintro b rfl; exact hbyte b ⟨p, rest, hm, hp⟩
    · rintro rfl; exact hreset ⟨_, rest, hm, .inr ⟨p, rfl, hp⟩⟩
  · rcases whenIdle_next hi with ⟨-, rfl⟩ | ⟨-, rfl⟩ <;> exact absurd rfl hne
  · exact absurd (exec_crc (i := .buildRequest a fc reg v1 v2) nofun (fun _ => nofun) nofun hi) hne
  · exact .inr (.inr ⟨_, rest, hm, .inl rfl⟩)
  · exact absurd (coreMove_crc hc) hne
  · exact absurd (transportTakes_crc k _) hne
  · exact absurd (transportGives_crc bs _) hne
  · exact absurd (timeElapses_crc ms _) hne

end Sys2Proof.Machine

open Sys2Proof Sys2Proof.Machine

/-- Settles O16: every other operation commutes with a change of `CRC`. -/
theorem crcIsUsedByItsCommandsOnly : Obligations.CrcIsUsedByItsCommandsOnly :=
  ⟨rfl, fun _ _ => step_changes_crc, fun _ _ _ c => exec_setCrc c⟩

end

section
/-!
SUPPORT. What leaves the block, and what it reads from outside: the bytes on the wire and the image memory. No operation writes
either but the Transport's taking of bytes (20_memory.md R72) and an accepted `FW_START` (R68, R76); and the block fetch never
reads beyond the image (R67, R248).
-/
namespace Sys2Proof.Machine

/-! ### Reading the image -/

theorem Memory.read_cons (a addr : Nat) (b : Byte) (m : Memory) :
    Memory.read ((a, b) :: m) addr = if a = addr then some b else Memory.read m addr := by
  by_cases h : a = addr <;> simp [Memory.read, h]

theorem Memory.read_cells (a : Nat) (bs : List Byte) (i : Nat) : Memory.read (Memory.cells a bs) (a + i) = bs[i]? := by
  induction bs generalizing a i with
  | nil => rfl
  | cons b bs ih =>
    rw [Memory.cells, Memory.read_cons]
    cases i with
    | zero => rw [if_pos (Nat.add_zero a).symm, List.getElem?_cons_zero]
    | succ i =>
      rw [if_neg (by omega), List.getElem?_cons_succ, ← ih (a + 1) i]
      congr 1
      omega

/-- Byte `i` of a loaded image is at address `i`, and no other address holds a byte (R66). -/
theorem Memory.read_load (image : List Byte) (addr : Nat) : Memory.read (Memory.load image) addr = image[addr]? := by
  rw [Memory.load, ← Memory.read_cells 0 image addr, Nat.zero_add]

theorem Memory.load_eq_zip (image : List Byte) : Memory.load image = (List.range image.length).zip image :=
  List.zip_of_prod (Memory.load_fst image) (Memory.cells_snd 0 image)

/-- A memory whose addresses are those of an image is the image that its bytes make. -/
theorem Memory.eq_load {m : Memory} {n : Nat} (h : m.map Prod.fst = List.range n) :
    m = Memory.load (m.map Prod.snd) ∧ (m.map Prod.snd).length = n := by
  have hlen : (m.map Prod.snd).length = n := by simpa using congrArg List.length h
  refine ⟨?_, hlen⟩
  rw [Memory.load_eq_zip, hlen]
  exact List.zip_of_prod h rfl

/-- `MemRead` is defined on every range inside the image (R67). -/
theorem Memory.readRange_isSome {m : Memory} {size : Nat} (h : m.map Prod.fst = List.range size) {addr n : Nat}
    (hn : n ≤ size - addr) : (Memory.readRange m addr n).isSome = true := by
  obtain ⟨hm, hlen⟩ := Memory.eq_load h
  rw [hm, Memory.readRange_load, hlen, if_pos hn]
  rfl

/-! ### Faults -/

/-- The image bytes of block `k` end within the image (R248). -/
theorem blockBytesIn_le (n k : Nat) : blockBytesIn n k ≤ n - k * Config.blockSize := Nat.min_le_right _ _

/-- The block fetch of a session is defined. -/
theorem SessionInv.fetchBlock_ne_none {s : State} (h : SessionInv s) (hf : inSession s.session.fwState = true) :
    fetchBlock s ≠ none := by
  have hsome := Memory.readRange_isSome (h.image hf) (blockBytesIn_le _ s.session.blkIdx.toNat)
  simpa [fetchBlock, ← Option.isSome_iff_ne_none] using hsome

theorem hostMove_ne_fault (p : Presented) (s : State) (f : Fault) : hostMove p s ≠ .fault f := by
  have exec_ne i : exec i s ≠ .fault f := by
    obtain ⟨t, ht⟩ := exec_total i s
    simp [ht]
  unfold hostMove
  split
  · exact exec_ne _
  · next e _ =>
    cases e with
    | illegalCode op => simp only [rejectedPresentation, illegalCommand, whenIdle]; split <;> nofun
    | noShape a fc reg => exact exec_ne (.buildRequest a fc reg s.opnd.value1 .absent)
    | otherBody a fc reg v1 v2 => exact exec_ne (.buildRequest a fc reg v1 v2)
    | noCode | badOperands | shortBody => nofun

theorem continueSession_fault {s : State} {f : Fault} (h : continueSession s = .fault f) :
    s.session.fwState = .transferring ∧ fetchBlock s = none := by
  unfold continueSession at h
  cases hf : s.session.fwState <;> simp only [hf] at h
  case transferring =>
    split at h
    · split at h
      · cases h
      · next hnone => exact ⟨rfl, hnone⟩
    · cases h
  all_goals cases h

theorem coreMove_fault {s : State} {f : Fault} (h : coreMove s = .fault f) : continueSession s = .fault f := by
  unfold coreMove at h
  cases hp : s.phase with simp only [hp] at h
  | tx | rxWait | gap => split at h <;> cases h
  | idle =>
    split at h
    · exact h
    · cases h

/-- Only a move of the Core can fault, at the fetch of a block. -/
theorem step_fault {s : State} {f : Fault} (h : step s = .fault f) :
    ∃ rest, s.env.moves = .core :: rest ∧ coreMove (withMoves s rest) = .fault f := by
  cases hm : s.env.moves with
  | nil => simp [step, nextMove, hm] at h
  | cons m rest =>
    simp only [step, nextMove, hm] at h
    cases m with
    | host p => exact absurd h (hostMove_ne_fault p _ f)
    | core => exact ⟨rest, rfl, h⟩
    | resetInput | takes | gives | elapse => cases h

theorem Inv.step_ne_fault {s : State} (h : Inv s) (f : Fault) : Machine.step s ≠ .fault f := by
  intro hstep
  obtain ⟨rest, -, hcore⟩ := step_fault hstep
  obtain ⟨hf, hnone⟩ := continueSession_fault (coreMove_fault hcore)
  exact (h.withMoves rest).session.fetchBlock_ne_none (by rw [hf]; rfl) hnone

/-! ### Operations that touch neither the wire nor the image -/

/-- From `s` to `t` the bytes on the wire and the image memory stay. -/
structure KeepsOutside (s t : State) : Prop where
  wire : t.env.wire = s.env.wire
  mem : t.mem = s.mem

namespace KeepsOutside
variable {s t : State}

theorem whenIdle {f : State → State} (he : whenIdle s (fun s => .next (f s)) = .next t) (hf : KeepsOutside s (f s)) :
    KeepsOutside s t := by
  rcases whenIdle_next he with ⟨-, rfl⟩ | ⟨-, rfl⟩
  exacts [⟨rfl, rfl⟩, hf]

/-- A refusal writes the result only (R290). -/
theorem endChecked (check : Option Byte) {ok : State → State} (h : KeepsOutside s (ok s)) :
    KeepsOutside s (endChecked check s ok) := by
  rcases endChecked_cases check s ok with ⟨k, -, e⟩ | ⟨-, e⟩ <;> rw [e]
  exacts [⟨rfl, rfl⟩, h]

theorem accessor (inside : Prop) [Decidable inside] (r : Ret) : KeepsOutside s (accessor inside r s) :=
  endChecked _ ⟨rfl, rfl⟩

theorem buildRequestOp (a fc : Byte) (reg v1 : U16) (v2 : Value2) : KeepsOutside s (buildRequestOp a fc reg v1 v2 s) := by
  rcases buildRequestOp_cases a fc reg v1 v2 s with ⟨k, -, e⟩ | ⟨-, -, e⟩ <;> rw [e] <;> exact ⟨rfl, rfl⟩

/-- An Arbiter command hands no byte over yet when it begins its exchange (R202). -/
theorem arbiterOp (o : Operands) (d c : Nat) : KeepsOutside s (arbiterOp o d c s) := by
  rcases arbiterOp_cases o d c s with ⟨k, -, e⟩ | ⟨-, -, -, e⟩ <;> rw [e] <;> exact ⟨rfl, rfl⟩

theorem exec {i : Instr} (hfw : ∀ image, i ≠ .fwStart image) (he : exec i s = .next t) : KeepsOutside s t := by
  cases i with simp only [Machine.exec] at he
  | fwStart image => exact absurd rfl (hfw image)
  | crcInit | crcByte | decCrcok | softReset => exact whenIdle he ⟨rfl, rfl⟩
  | regRead | bufRead => cases he; exact ⟨rfl, rfl⟩
  | buildRequest | reqReadCoils | reqReadDiscreteInputs | reqReadHoldingRegisters | reqReadInputRegisters
  | reqWriteSingleCoil | reqWriteSingleRegister | reqWriteMultipleCoils | reqWriteMultipleRegisters
  | reqExceptionClass => exact whenIdle he (buildRequestOp ..)
  | parseResponse => exact whenIdle he (endChecked _ ⟨rfl, rfl⟩)
  | decFc | decErrbc | decRegs | decCoils => exact whenIdle he (accessor ..)
  | readHoldingRegisters | readCoils | writeSingleRegister | writeSingleCoil | writeMultipleRegisters
  | writeMultipleCoils => exact whenIdle he (arbiterOp ..)
  | cfgWrite number v => exact whenIdle he (by cases writeSetting s.cfg number v <;> exact ⟨rfl, rfl⟩)

theorem illegalCommand (he : illegalCommand s = .next t) : KeepsOutside s t := whenIdle he ⟨rfl, rfl⟩

theorem afterTransmit (s : State) : KeepsOutside s (afterTransmit s) := by
  unfold Machine.afterTransmit
  split <;> exact ⟨rfl, rfl⟩

/-- What follows an exchange writes session registers, the result, and the count of the free values drawn (R244, R247, R254). -/
theorem afterExchange (s : State) : KeepsOutside s (afterExchange s) := by
  unfold Machine.afterExchange
  split
  case h_1 => unfold afterInitialize; dsimp only; split <;> exact ⟨rfl, rfl⟩
  case h_2 => unfold afterBlock; split <;> exact ⟨rfl, rfl⟩
  case h_3 => unfold afterCommit; dsimp only; split <;> exact ⟨rfl, rfl⟩
  all_goals exact ⟨rfl, rfl⟩

theorem coreMove (h : coreMove s = .next t) : KeepsOutside s t := by
  rcases coreMove_cases h with rfl | ⟨-, -, rfl⟩ | ⟨-, -, rfl⟩ | ⟨-, -, rfl⟩ | ⟨-, -, -, -, s1, h1, rfl⟩ |
    ⟨-, -, -, -, rfl⟩ | ⟨-, -, -, rfl⟩
  · exact ⟨rfl, rfl⟩
  · exact afterTransmit s
  · exact ⟨rfl, rfl⟩
  · exact { afterExchange (endExchange s) with }
  · obtain ⟨_, -, rfl⟩ := fetchBlock_some h1
    exact ⟨rfl, rfl⟩
  · exact ⟨rfl, rfl⟩
  · exact ⟨rfl, rfl⟩

theorem transportGives (bs : List Byte) (s : State) : KeepsOutside s (transportGives bs s) := by
  unfold Machine.transportGives
  split <;> exact ⟨rfl, rfl⟩

theorem timeElapses (ms : Nat) (s : State) : KeepsOutside s (timeElapses ms s) := by
  unfold Machine.timeElapses
  split <;> exact ⟨rfl, rfl⟩

/-- The Transport takes bytes of a request only while one is handed over (R203). -/
theorem transportTakes (k : Nat) (h : s.phase ≠ .tx) : KeepsOutside s (transportTakes k s) := by
  unfold Machine.transportTakes
  split
  case h_1 hp => exact absurd hp h
  all_goals exact ⟨rfl, rfl⟩

end KeepsOutside

/-! ### The two that do not -/

theorem fwCheck_none_idle {image : List Byte} {s : State} (h : fwCheck image s = none) : s.session.fwState = .idle := by
  by_contra hne
  simp [fwCheck, hne] at h

/-- `FW_START` brings its image when it is accepted, and is without effect on the image otherwise (R240). -/
theorem execFwStart_outside {s t : State} {image : List Byte} (he : execFwStart image s = .next t) :
    KeepsOutside s t ∨ (s.session.fwState = .idle ∧ t.mem = Memory.load image ∧ t.env.wire = s.env.wire) := by
  rcases whenIdle_next he with ⟨-, rfl⟩ | ⟨-, rfl⟩
  · exact .inl ⟨rfl, rfl⟩
  rcases endChecked_cases (fwCheck image s) s (fun s => sendMagic s.cfg.regUpdInit (startSession image s))
    with ⟨k, -, e⟩ | ⟨hk, e⟩ <;> rw [e]
  · exact .inl ⟨rfl, rfl⟩
  · exact .inr ⟨fwCheck_none_idle hk, rfl, rfl⟩

theorem exec_outside {s t : State} {i : Instr} (he : exec i s = .next t) :
    KeepsOutside s t ∨
    ∃ image, i = .fwStart image ∧ s.session.fwState = .idle ∧ t.mem = Memory.load image ∧ t.env.wire = s.env.wire := by
  by_cases hfw : ∃ image, i = .fwStart image
  · obtain ⟨image, rfl⟩ := hfw
    rcases execFwStart_outside he with h | h
    exacts [.inl h, .inr ⟨image, rfl, h⟩]
  · exact .inl (.exec (fun image hi => hfw ⟨image, hi⟩) he)

theorem transportTakes_of_tx {s : State} (h : s.phase = .tx) (k : Nat) :
    transportTakes k s = { s with
      hidden := { s.hidden with
        txPos := s.hidden.txPos + ((s.tx.bytes.drop s.hidden.txPos).take k).length }
      env := { s.env with wire := s.env.wire ++ (s.tx.bytes.drop s.hidden.txPos).take k } } := by
  unfold transportTakes
  rw [h]

/-- What a step can do to the wire and to the image memory. -/
theorem step_outside {s t : State} (h : step s = .next t) :
    KeepsOutside s t ∨
    (∃ image, Presents s (.fwStart image) ∧ s.session.fwState = .idle ∧ t.mem = Memory.load image ∧
      t.env.wire = s.env.wire) ∨
    (s.phase = .tx ∧ ∃ k rest, s.env.moves = .takes k :: rest ∧ t = transportTakes k (withMoves s rest)) := by
  rcases step_cases h with ⟨-, rfl⟩ | ⟨m, rest, hm, hmove⟩
  · exact .inl ⟨rfl, rfl⟩
  have keep (hk : KeepsOutside (withMoves s rest) t) : KeepsOutside s t := { hk with }
  rcases hmove with ⟨p, i, rfl, hp, hi⟩ | ⟨p, op, -, -, hi⟩ | ⟨p, e, a, fc, reg, v1, v2, -, -, hi⟩ | ⟨-, rfl⟩ |
    ⟨-, hc⟩ | ⟨k, rfl, rfl⟩ | ⟨bs, -, rfl⟩ | ⟨ms, -, rfl⟩
  · rcases exec_outside hi with hk | ⟨image, rfl, hidle, hmem, hwire⟩
    · exact .inl (keep hk)
    · exact .inr (.inl ⟨image, ⟨p, rest, hm, hp⟩, hidle, hmem, hwire⟩)
  · exact .inl (keep (.illegalCommand hi))
  · exact .inl (keep (.exec (i := .buildRequest a fc reg v1 v2) (fun _ => nofun) hi))
  · exact .inl ⟨rfl, rfl⟩
  · exact .inl (keep (.coreMove hc))
  · by_cases hp : s.phase = .tx
    · exact .inr (.inr ⟨hp, k, rest, hm, rfl⟩)
    · exact .inl (keep (.transportTakes k hp))
  · exact .inl (keep (.transportGives bs _))
  · exact .inl (keep (.timeElapses ms _))

end Sys2Proof.Machine

open Sys2Proof Sys2Proof.Machine

/-- Settles O4: only the fetch of a block can fault, and the invariant keeps the image's addresses for it. -/
theorem invariantExcludesFaults : Obligations.InvariantExcludesFaults := fun _ f h => h.step_ne_fault f

/-- Settles O42: of all the moves only the Transport's taking of bytes reaches the wire. -/
theorem wireCarriesRequestsInOrder : Obligations.WireCarriesRequestsInOrder := by
  intro s t h
  rcases step_outside h with hk | ⟨_, -, -, -, hwire⟩ | ⟨hp, k, rest, hm, rfl⟩
  · exact .inl hk.wire
  · exact .inl hwire
  · have e := transportTakes_of_tx (s := withMoves s rest) hp k
    refine .inr ⟨hp, ?_, k, rest, hm, ?_, ?_, ?_⟩ <;> rw [e]
    exacts [hp, rfl, rfl, rfl]

/-- Settles O60: of all the moves only an accepted `FW_START` reaches the image memory. -/
theorem imageMemoryIsNeverWritten : Obligations.ImageMemoryIsNeverWritten := by
  intro s t h
  rcases step_outside h with hk | ⟨image, hpres, hidle, hmem, -⟩ | ⟨hp, k, rest, -, rfl⟩
  · exact .inl fun addr => by rw [hk.mem]
  · exact .inr ⟨image, hpres, hidle, fun addr => by rw [hmem, Memory.read_load]⟩
  · exact .inl fun addr => by rw [transportTakes_of_tx (s := withMoves s rest) hp k]; rfl

end

section
/-!
SUPPORT. The two decoders invert the encoders (30_encoding.md R95 to R98, R113). For every helper of a decoder one lemma says
exactly which bytes it reads and as what, in the encoder's own terms; both directions of the round trip follow from them.
-/
namespace Sys2Proof

/-! ### Bytes and words -/

@[simp] theorem be16_wordOf (h l : Byte) : be16 (wordOf h l) = [h, l] := by simp [be16]

theorem toNat_wordOf_zero (b : Byte) : (wordOf 0 b).toNat = b.toNat := by
  simp only [wordOf, BitVec.toNat_append]
  simp

/-- A word below 256 is its low byte. -/
theorem wordOf_zero_lo {v : U16} (h : v.toNat ≤ 255) : wordOf 0 (lo v) = v := by
  apply BitVec.eq_of_toNat_eq
  rw [toNat_wordOf_zero]
  simp [lo]
  omega

theorem byte_eq_ofNat {b : Byte} {n : Nat} (h : b.toNat = n) : b = BitVec.ofNat 8 n := by simp [← h]

/-! ### Coil states (R107, R108) -/

/-- Coil `i` of packed coils is coil `i`. -/
theorem coilAt_packCoils {m i : Nat} (coils : List Bool) (h : i < 8 * m) :
    coilAt (packCoils m coils) i = coils.getD i false := by
  rw [coilAt, packCoils_getD m coils (i / 8) (by omega), packByte_getLsbD _ (by simp) _ (by omega)]
  simp [List.getD_eq_getElem?_getD, List.getElem?_drop, Nat.mod_lt, Nat.div_add_mod]

/-- Unpacking gives back what was packed. -/
theorem unpackCoils_packCoils {m : Nat} {coils : List Bool} (h : coils.length ≤ 8 * m) :
    unpackCoils coils.length (packCoils m coils) = coils := by
  apply List.ext_getElem (by simp)
  intro i hi hi'
  simp [unpackCoils, coilAt_packCoils coils (show i < 8 * m by omega), hi']

theorem decodeBool_eq_some {b : Byte} {x : Bool} : decodeBool b = some x ↔ encodeBool x = b := by
  constructor
  · intro h
    unfold decodeBool at h
    split at h
    · next hb => cases h; exact hb.symm
    · split at h <;> cases h
      next hb => exact hb.symm
  · rintro rfl
    cases x <;> rfl

theorem decodeBools_eq_some {bs : List Byte} {states : List Bool} :
    decodeBools bs = some states ↔ states.map encodeBool = bs := by
  induction bs generalizing states with
  | nil => simp [decodeBools, eq_comm]
  | cons b bs ih =>
    constructor
    · intro h
      unfold decodeBools at h
      split at h <;> cases h
      next hx hxs => rw [List.map_cons, decodeBool_eq_some.mp hx, ih.mp hxs]
    · intro h
      obtain ⟨x, xs, rfl, hx, hxs⟩ := List.map_eq_cons_iff.mp h
      simp only [decodeBools, decodeBool_eq_some.mpr hx, ih.mpr hxs]

theorem decodeValue2_eq_some {bs : List Byte} {v : Value2} : decodeValue2 bs = some v ↔ encodeValue2 v = bs := by
  constructor
  · intro h
    unfold decodeValue2 at h
    split at h
    · cases h
    · split at h
      · split at h <;> cases h
        next hk hbs => rw [hk, hbs]; rfl
      · split at h
        · next hk => cases h; rw [hk]; rfl
        · split at h
          · next hk =>
            obtain ⟨states, hs, rfl⟩ := Option.map_eq_some_iff.mp h
            rw [hk, ← decodeBools_eq_some.mp hs]; rfl
          · cases h
  · rintro rfl
    cases v with
    | absent => rfl
    | data bytes => rfl
    | coils states => exact Option.map_eq_some_iff.mpr ⟨states, decodeBools_eq_some.mpr rfl, rfl⟩

/-! ### The operands of a command (R113) -/

theorem operandsOf_eq_instr {op : Byte} {o : Option Instr} {i : Instr} : operandsOf op o = .instr i ↔ o = some i := by
  cases o <;> simp [operandsOf]

theorem argsNone_eq_some {mk i : Instr} {args : List Byte} : argsNone mk args = some i ↔ [] = args ∧ mk = i := by
  cases args <;> simp [argsNone]

theorem argsByte_eq_some {mk : Byte → Instr} {args : List Byte} {i : Instr} :
    argsByte mk args = some i ↔ ∃ b, [b] = args ∧ mk b = i := by
  constructor
  · intro h
    unfold argsByte at h
    split at h <;> cases h
    exact ⟨_, rfl, rfl⟩
  · rintro ⟨b, rfl, rfl⟩
    rfl

theorem argsWord_eq_some {mk : U16 → Instr} {args : List Byte} {i : Instr} :
    argsWord mk args = some i ↔ ∃ v, be16 v = args ∧ mk v = i := by
  constructor
  · intro h
    unfold argsWord at h
    split at h <;> cases h
    exact ⟨_, be16_wordOf _ _, rfl⟩
  · rintro ⟨v, rfl, rfl⟩
    simp [argsWord, be16]

theorem argsByteWord_eq_some {mk : Byte → U16 → Instr} {args : List Byte} {i : Instr} :
    argsByteWord mk args = some i ↔ ∃ b v, b :: be16 v = args ∧ mk b v = i := by
  constructor
  · intro h
    unfold argsByteWord at h
    split at h <;> cases h
    exact ⟨_, _, by rw [be16_wordOf], rfl⟩
  · rintro ⟨b, v, rfl, rfl⟩
    simp [argsByteWord, be16]

theorem argsWordWord_eq_some {mk : U16 → U16 → Instr} {args : List Byte} {i : Instr} :
    argsWordWord mk args = some i ↔ ∃ v w, be16 v ++ be16 w = args ∧ mk v w = i := by
  constructor
  · intro h
    unfold argsWordWord at h
    split at h <;> cases h
    exact ⟨_, _, by simp only [be16_wordOf]; rfl, rfl⟩
  · rintro ⟨v, w, rfl, rfl⟩
    simp [argsWordWord, be16]

theorem argsByteWordWord_eq_some {mk : Byte → U16 → U16 → Instr} {args : List Byte} {i : Instr} :
    argsByteWordWord mk args = some i ↔ ∃ b v w, b :: (be16 v ++ be16 w) = args ∧ mk b v w = i := by
  constructor
  · intro h
    unfold argsByteWordWord at h
    split at h <;> cases h
    exact ⟨_, _, _, by simp only [be16_wordOf]; rfl, rfl⟩
  · rintro ⟨b, v, w, rfl, rfl⟩
    simp [argsByteWordWord, be16]

theorem argsByteWordBool_eq_some {mk : Byte → U16 → Bool → Instr} {args : List Byte} {i : Instr} :
    argsByteWordBool mk args = some i ↔ ∃ b v t, b :: (be16 v ++ [encodeBool t]) = args ∧ mk b v t = i := by
  constructor
  · intro h
    unfold argsByteWordBool at h
    split at h
    · obtain ⟨t, ht, rfl⟩ := Option.map_eq_some_iff.mp h
      exact ⟨_, _, t, by rw [be16_wordOf, decodeBool_eq_some.mp ht]; rfl, rfl⟩
    · cases h
  · rintro ⟨b, v, t, rfl, rfl⟩
    simp [argsByteWordBool, be16, decodeBool_eq_some.mpr rfl]

theorem argsBytes_eq_some {mk : List Byte → Instr} {args : List Byte} {i : Instr} :
    argsBytes mk args = some i ↔ mk args = i := Option.some_inj

theorem argsData_eq_some {mk : Byte → U16 → U16 → List Byte → Instr} {args : List Byte} {i : Instr} :
    argsData mk args = some i ↔ ∃ b v w data, b :: (be16 v ++ be16 w ++ data) = args ∧ mk b v w data = i := by
  constructor
  · intro h
    unfold argsData at h
    split at h <;> cases h
    exact ⟨_, _, _, _, by simp only [be16_wordOf]; rfl, rfl⟩
  · rintro ⟨b, v, w, data, rfl, rfl⟩
    simp [argsData, be16]

theorem argsCoils_eq_some {mk : Byte → U16 → U16 → List Bool → Instr} {args : List Byte} {i : Instr} :
    argsCoils mk args = some i ↔
      ∃ b v w coils, b :: (be16 v ++ be16 w ++ coils.map encodeBool) = args ∧ mk b v w coils = i := by
  constructor
  · intro h
    unfold argsCoils at h
    split at h
    · obtain ⟨coils, hc, rfl⟩ := Option.map_eq_some_iff.mp h
      exact ⟨_, _, _, coils, by simp only [be16_wordOf, decodeBools_eq_some.mp hc]; rfl, rfl⟩
    · cases h
  · rintro ⟨b, v, w, coils, rfl, rfl⟩
    simp [argsCoils, be16, decodeBools_eq_some.mpr rfl]

theorem argsBuild_eq_some {mk : Byte → Byte → U16 → U16 → Value2 → Instr} {args : List Byte} {i : Instr} :
    argsBuild mk args = some i ↔
      ∃ a fc v w v2, a :: fc :: (be16 v ++ be16 w ++ encodeValue2 v2) = args ∧ mk a fc v w v2 = i := by
  constructor
  · intro h
    unfold argsBuild at h
    split at h
    · obtain ⟨v2, hv, rfl⟩ := Option.map_eq_some_iff.mp h
      exact ⟨_, _, _, _, v2, by simp only [be16_wordOf, decodeValue2_eq_some.mp hv]; rfl, rfl⟩
    · cases h
  · rintro ⟨a, fc, v, w, v2, rfl, rfl⟩
    simp [argsBuild, be16, decodeValue2_eq_some.mpr rfl]

/-! ### The payload of a request form (R95 to R98) -/

theorem otherForm_ne_instr (a fc : Byte) (reg : U16) (pl : List Byte) (i : Instr) : otherForm a fc reg pl ≠ .instr i := by
  unfold otherForm
  split
  · nofun
  · split <;> nofun

theorem payloadOf_eq_instr {a fc : Byte} {reg : U16} {pl : List Byte} {o : Option Instr} {i : Instr} :
    payloadOf a fc reg pl o = .instr i ↔ o = some i := by
  cases o <;> simp [payloadOf, otherForm_ne_instr]

theorem decodeCoilWord_eq_some {mk : U16 → Instr} {pl : List Byte} {i : Instr} :
    decodeCoilWord mk pl = some i ↔ ∃ v : U16, v.toNat ≤ 1 ∧ payload .singleCoil v [] [] = pl ∧ mk v = i := by
  constructor
  · intro h
    unfold decodeCoilWord at h
    split at h
    · next hb lb =>
      rw [← be16_wordOf hb lb]
      split at h
      · next hw => cases h; exact ⟨1, by decide, by rw [hw]; rfl, rfl⟩
      · split at h <;> cases h
        next hw => exact ⟨0, by decide, by rw [hw]; rfl, rfl⟩
    · cases h
  · rintro ⟨v, hv, rfl, rfl⟩
    obtain rfl | rfl : v = 0 ∨ v = 1 := by
      rcases Nat.le_one_iff_eq_zero_or_eq_one.mp hv with h | h
      · exact .inl (BitVec.eq_of_toNat_eq h)
      · exact .inr (BitVec.eq_of_toNat_eq h)
    · rfl
    · rfl

theorem decodeCoilPayload_eq_some {mk : U16 → List Bool → Instr} {pl : List Byte} {i : Instr} :
    decodeCoilPayload mk pl = some i ↔
      ∃ v coils, coils.length = v.toNat ∧ payload .multipleCoils v [] coils = pl ∧ mk v coils = i := by
  constructor
  · intro h
    simp only [decodeCoilPayload] at h
    split at h
    · split at h <;> cases h
      next hm =>
      obtain ⟨hcount, hpacked⟩ := hm
      exact ⟨_, _, length_unpackCoils _ _, by simp only [payload, be16_wordOf, ← hcount, ← hpacked]; rfl, rfl⟩
    · cases h
  · rintro ⟨v, coils, hlen, rfl, rfl⟩
    have hunpack : unpackCoils v.toNat (packCoils (coilBytes v) coils) = coils := by
      rw [← hlen]
      exact unpackCoils_packCoils (by simp only [coilBytes]; omega)
    simp [decodeCoilPayload, payload, be16, hunpack]

theorem decodeRegisterPayload_eq_some {mk : U16 → List Byte → Instr} {pl : List Byte} {i : Instr} :
    decodeRegisterPayload mk pl = some i ↔
      ∃ (v : U16) (data : List Byte), v.toNat ≤ 255 ∧ payload .multipleRegisters v data [] = pl ∧ mk v data = i := by
  constructor
  · intro h
    unfold decodeRegisterPayload at h
    split at h
    · next n _ _ =>
      split at h <;> cases h
      next hz =>
      obtain ⟨rfl, rfl⟩ := hz
      have hn := toNat_wordOf_zero n
      exact ⟨_, _, by omega, by simp only [payload, lo_wordOf, hn]; rfl, rfl⟩
    · cases h
  · rintro ⟨v, data, hv, rfl, rfl⟩
    have hn := toNat_wordOf_zero (lo v)
    rw [wordOf_zero_lo hv] at hn
    simp only [payload, List.cons_append, List.nil_append, decodeRegisterPayload, hn, true_and, if_true, wordOf_zero_lo hv]

/-! ### The exception class (R98, R159) -/

theorem exceptionCode_getLsbD (code : BitVec 7) : (exceptionCode code).getLsbD 7 = true := by
  simp only [exceptionCode, BitVec.getLsbD_append]
  rfl

@[simp] theorem funcClass_exceptionCode (code : BitVec 7) : funcClass (exceptionCode code) = some .exceptionClass :=
  if_pos (exceptionCode_getLsbD code)

@[simp] theorem extractLsb'_exceptionCode (code : BitVec 7) : (exceptionCode code).extractLsb' 0 7 = code := by
  apply BitVec.eq_of_getLsbD_eq
  intro j hj
  simp only [exceptionCode, BitVec.getLsbD_extractLsb', BitVec.getLsbD_append]
  simp [hj]

theorem exceptionCode_extractLsb' {fc : Byte} (h : fc.getLsbD 7 = true) : exceptionCode (fc.extractLsb' 0 7) = fc := by
  apply BitVec.eq_of_getLsbD_eq
  intro j hj
  obtain hj | rfl : j < 7 ∨ j = 7 := by omega
  · simp only [exceptionCode, BitVec.getLsbD_append, BitVec.getLsbD_extractLsb']
    simp [hj]
  · rw [h, exceptionCode_getLsbD]

/-! ### The round trip -/

/-- Operands that are read make the instruction (R113). -/
theorem decode_command {op : Byte} {args : List Byte} {o : Option Instr} {i : Instr}
    (hop : decodeCommand (op :: args) = operandsOf op o) (h : o = some i) : decode (.command (op :: args)) = .instr i :=
  hop.trans (operandsOf_eq_instr.mpr h)

/-- A payload that is read makes the form of its function code (R91, R93). -/
theorem decode_requestBody {a fc : Byte} {reg v1 : U16} {data : List Byte} {coils : List Bool} {c : FuncClass}
    {o : Option Instr} {i : Instr} (hc : funcClass fc = some c)
    (hform : decodeForm a fc reg (payload c v1 data coils) = payloadOf a fc reg (payload c v1 data coils) o)
    (h : o = some i) : decode (.request (requestBody a fc reg v1 data coils)) = .instr i := by
  simp only [decode, requestBody, hc, be16, List.cons_append, List.nil_append, decodeBody, wordOf_hi_lo]
  exact hform.trans (payloadOf_eq_instr.mpr h)

theorem decode_encode {i : Instr} (h : i.wellFormed = true) : decode (encode i) = .instr i := by
  cases i with
  | crcInit | decFc | decErrbc | decCrcok | softReset | crcByte | regRead | parseResponse | fwStart => rfl
  | decCoils => exact decode_command rfl (argsWord_eq_some.mpr ⟨_, rfl, rfl⟩)
  | decRegs => exact decode_command rfl (argsWordWord_eq_some.mpr ⟨_, _, rfl, rfl⟩)
  | cfgWrite | bufRead => exact decode_command rfl (argsByteWord_eq_some.mpr ⟨_, _, rfl, rfl⟩)
  | readHoldingRegisters | readCoils | writeSingleRegister =>
    exact decode_command rfl (argsByteWordWord_eq_some.mpr ⟨_, _, _, rfl, rfl⟩)
  | writeSingleCoil => exact decode_command rfl (argsByteWordBool_eq_some.mpr ⟨_, _, _, rfl, rfl⟩)
  | writeMultipleRegisters => exact decode_command rfl (argsData_eq_some.mpr ⟨_, _, _, _, rfl, rfl⟩)
  | writeMultipleCoils => exact decode_command rfl (argsCoils_eq_some.mpr ⟨_, _, _, _, rfl, rfl⟩)
  | buildRequest => exact decode_command rfl (argsBuild_eq_some.mpr ⟨_, _, _, _, _, rfl, rfl⟩)
  | reqReadCoils | reqReadDiscreteInputs | reqReadHoldingRegisters | reqReadInputRegisters | reqWriteSingleRegister =>
    exact decode_requestBody rfl rfl (argsWord_eq_some.mpr ⟨_, rfl, rfl⟩)
  | reqWriteSingleCoil =>
    exact decode_requestBody rfl rfl (decodeCoilWord_eq_some.mpr ⟨_, of_decide_eq_true h, rfl, rfl⟩)
  | reqWriteMultipleCoils =>
    exact decode_requestBody rfl rfl (decodeCoilPayload_eq_some.mpr ⟨_, _, of_decide_eq_true h, rfl, rfl⟩)
  | reqWriteMultipleRegisters =>
    exact decode_requestBody rfl rfl (decodeRegisterPayload_eq_some.mpr ⟨_, _, of_decide_eq_true h, rfl, rfl⟩)
  | reqExceptionClass a code reg v1 =>
    refine decode_requestBody (funcClass_exceptionCode code) (if_pos (exceptionCode_getLsbD code)) ?_
    rw [argsByte_eq_some]
    exact ⟨_, rfl, by rw [extractLsb'_exceptionCode, wordOf_zero_lo (of_decide_eq_true h)]⟩

/-- What the command port's decoder reads, by code; the codes are grouped by the shape of their operands. -/
theorem encode_of_decodeCommand {bytes : List Byte} {i : Instr} (h : decodeCommand bytes = .instr i) :
    i.wellFormed = true ∧ encode i = .command bytes := by
  cases bytes with
  | nil => cases h
  | cons op args =>
    simp only [decodeCommand] at h
    split at h
    case h_21 => cases h
    all_goals obtain rfl := byte_eq_ofNat ‹op.toNat = _›
    all_goals rw [operandsOf_eq_instr] at h
    case h_1 | h_5 | h_6 | h_9 | h_20 =>
      obtain ⟨rfl, rfl⟩ := argsNone_eq_some.mp h
      exact ⟨rfl, rfl⟩
    case h_2 | h_18 =>
      obtain ⟨_, rfl, rfl⟩ := argsByte_eq_some.mp h
      exact ⟨rfl, rfl⟩
    case h_3 =>
      obtain ⟨_, _, _, _, _, rfl, rfl⟩ := argsBuild_eq_some.mp h
      exact ⟨rfl, rfl⟩
    case h_4 | h_16 =>
      obtain rfl := argsBytes_eq_some.mp h
      exact ⟨rfl, rfl⟩
    case h_7 =>
      obtain ⟨_, _, rfl, rfl⟩ := argsWordWord_eq_some.mp h
      exact ⟨rfl, rfl⟩
    case h_8 =>
      obtain ⟨_, rfl, rfl⟩ := argsWord_eq_some.mp h
      exact ⟨rfl, rfl⟩
    case h_10 | h_11 | h_12 =>
      obtain ⟨_, _, _, rfl, rfl⟩ := argsByteWordWord_eq_some.mp h
      exact ⟨rfl, rfl⟩
    case h_13 =>
      obtain ⟨_, _, _, rfl, rfl⟩ := argsByteWordBool_eq_some.mp h
      exact ⟨rfl, rfl⟩
    case h_14 =>
      obtain ⟨_, _, _, _, rfl, rfl⟩ := argsData_eq_some.mp h
      exact ⟨rfl, rfl⟩
    case h_15 =>
      obtain ⟨_, _, _, _, rfl, rfl⟩ := argsCoils_eq_some.mp h
      exact ⟨rfl, rfl⟩
    case h_17 | h_19 =>
      obtain ⟨_, _, rfl, rfl⟩ := argsByteWord_eq_some.mp h
      exact ⟨rfl, rfl⟩

theorem encode_of_decodeForm {a fc : Byte} {reg : U16} {pl : List Byte} {i : Instr}
    (h : decodeForm a fc reg pl = .instr i) :
    i.wellFormed = true ∧ encode i = .request ([a, fc] ++ be16 reg ++ pl) := by
  unfold decodeForm at h
  split at h
  · next hbit =>
    obtain ⟨v, rfl, rfl⟩ := argsByte_eq_some.mp (payloadOf_eq_instr.mp h)
    have hv := toNat_wordOf_zero v
    have hclass : funcClass fc = some .exceptionClass := if_pos hbit
    exact ⟨decide_eq_true (by omega),
      by simp only [encode, exceptionCode_extractLsb' hbit, requestBody, hclass, payload, lo_wordOf]⟩
  · split at h
    case h_9 => exact absurd h (otherForm_ne_instr a fc reg pl i)
    all_goals obtain rfl := byte_eq_ofNat ‹fc.toNat = _›
    all_goals rw [payloadOf_eq_instr] at h
    case h_1 | h_2 | h_3 | h_4 | h_6 =>
      obtain ⟨_, rfl, rfl⟩ := argsWord_eq_some.mp h
      exact ⟨rfl, rfl⟩
    case h_5 =>
      obtain ⟨_, hv, rfl, rfl⟩ := decodeCoilWord_eq_some.mp h
      exact ⟨decide_eq_true hv, rfl⟩
    case h_7 =>
      obtain ⟨_, _, hlen, rfl, rfl⟩ := decodeCoilPayload_eq_some.mp h
      exact ⟨decide_eq_true hlen, rfl⟩
    case h_8 =>
      obtain ⟨_, _, hv, rfl, rfl⟩ := decodeRegisterPayload_eq_some.mp h
      exact ⟨decide_eq_true hv, rfl⟩

theorem encode_of_decode {p : Presented} {i : Instr} (h : decode p = .instr i) :
    i.wellFormed = true ∧ encode i = p := by
  cases p with
  | command bytes => exact encode_of_decodeCommand h
  | request body =>
    simp only [decode, decodeBody] at h
    split at h
    · next hb lb pl => simpa using encode_of_decodeForm h
    · cases h

end Sys2Proof

open Sys2Proof

/-- Settles O6, by cases over the constructors: each decoder helper reads back what the encoder wrote. -/
theorem decodeOfEncode : Obligations.DecodeOfEncode := fun _ => decode_encode

/-- Settles O7, by cases over the codes: what a decoder helper reads is in the encoder's form. -/
theorem encodeOfDecode : Obligations.EncodeOfDecode := fun _ _ => encode_of_decode

/-- Settles O9: every sample is the encoding of its instruction, so O6 decodes it. -/
theorem sampleWordsDecode : Obligations.SampleWordsDecode :=
  ⟨decode_encode (i := .crcInit) rfl, decode_encode (i := .decFc) rfl,
    decode_encode (i := .writeSingleRegister 5 0x1234 0xF5F5) rfl, decode_encode (i := .fwStart [0xA5]) rfl,
    decode_encode (i := .cfgWrite 0x26 5) rfl, decode_encode (i := .reqReadCoils 0x11 0x0013 0x0025) rfl,
    decode_encode (i := .reqWriteSingleCoil 1 0x00AC 1) rfl,
    decode_encode (i := .reqWriteMultipleCoils 1 0 8 [true, false, false, false, false, false, false, true]) rfl,
    decode_encode (i := .reqWriteMultipleRegisters 1 0 2 [0x00, 0x01, 0xAB, 0xCD]) rfl,
    decode_encode (i := .reqExceptionClass 1 0x06 1 2) rfl⟩

end

section
/-!
SUPPORT. What a presentation on an idle or a busy port leads to: one rule for each way a command can end (refused by its checks,
or with its frame built), the checks of a request by cause (30_encoding.md R116 to R119), the block integer (R104), and the bodies
that no form encodes to.
-/
namespace Sys2Proof

/-! ### The block integer (R104) -/

theorem bigEndian_succ (len v : Nat) : bigEndian (len + 1) v = bigEndian len (v >>> 8) ++ [BitVec.ofNat 8 v] := by
  simp only [bigEndian, List.range_succ, List.map_append, List.map_cons, List.map_nil]
  congr 1
  · apply List.map_congr_left
    intro j hj
    have hlt := List.mem_range.mp hj
    rw [← Nat.shiftRight_add, show 8 * (len + 1 - 1 - j) = 8 + 8 * (len - 1 - j) by omega]
  · simp

/-- Read back most significant first, `len` bytes give the integer modulo `256 ^ len`. -/
theorem foldl_bigEndian (len v : Nat) :
    (bigEndian len v).foldl (fun n b => 256 * n + b.toNat) 0 = v % 256 ^ len := by
  induction len generalizing v with
  | zero => simp [bigEndian, Nat.mod_one]
  | succ len ih =>
    rw [bigEndian_succ, List.foldl_append, ih, Nat.pow_succ', Nat.mod_mul, Nat.shiftRight_eq_div_pow]
    simp only [List.foldl_cons, List.foldl_nil, BitVec.toNat_ofNat, Nat.reducePow]
    omega

/-- Bit `k` of byte `j`, for a byte of the sequence. -/
theorem getLsbD_getD_bigEndian {len j k : Nat} (v : Nat) (hj : j < len) (hk : k < 8) :
    ((bigEndian len v).getD j 0).getLsbD k = v.testBit (8 * (len - 1 - j) + k) := by
  rw [List.getD_eq_getElem _ _ (by simpa using hj)]
  simp only [bigEndian, List.getElem_map, List.getElem_range, BitVec.getLsbD_ofNat, Nat.testBit_shiftRight, hk, decide_true,
    Bool.true_and]

theorem length_blockBytes (count v : Nat) : (blockBytes count v).length = max (2 * count) (bytesNeeded v) :=
  length_bigEndian ..

/-- However long it is, a block integer is read back as it was. -/
theorem foldl_blockBytes (count v : Nat) : (blockBytes count v).foldl (fun n b => 256 * n + b.toNat) 0 = v := by
  rw [blockBytes, foldl_bigEndian, Nat.mod_eq_of_lt]
  exact (bytesNeeded_le_iff ..).mp (Nat.le_max_right ..)

theorem blockBytes_of_lt {count v : Nat} (h : v < 256 ^ (2 * count)) : blockBytes count v = bigEndian (2 * count) v := by
  rw [blockBytes, Nat.max_eq_left ((bytesNeeded_le_iff ..).mpr h)]

theorem lt_length_blockBytes {count v : Nat} (h : 256 ^ (2 * count) ≤ v) : 2 * count < (blockBytes count v).length := by
  have hneeded := mt (bytesNeeded_le_iff v (2 * count)).mp (Nat.not_lt.mpr h)
  rw [length_blockBytes]
  omega

/-! ### Function codes (R93, R119) -/

theorem funcClass_of_unlisted {fc : Byte}
    (h : fc.toNat = 0x00 ∨ (0x07 ≤ fc.toNat ∧ fc.toNat ≤ 0x0E) ∨ (0x11 ≤ fc.toNat ∧ fc.toNat ≤ 0x7F)) :
    funcClass fc = none := by
  have hbit : ¬ fc.getLsbD 7 = true := by
    rw [BitVec.getLsbD, Nat.testBit_lt_two_pow (by omega)]
    nofun
  unfold funcClass
  rw [if_neg hbit]
  split
  case h_9 => rfl
  all_goals omega

/-! ### What the decoders reject -/

theorem decodeCommand_of_illegal {op : Byte} (args : List Byte)
    (h : op.toNat = 0x00 ∨ (0x03 ≤ op.toNat ∧ op.toNat ≤ 0x07) ∨ op.toNat = 0x0F ∨
      (0x16 ≤ op.toNat ∧ op.toNat ≤ 0x1F) ∨ (0x21 ≤ op.toNat ∧ op.toNat ≤ 0x2F) ∨
      (0x33 ≤ op.toNat ∧ op.toNat ≤ 0x3E) ∨ 0x40 ≤ op.toNat) :
    decodeCommand (op :: args) = .rejected (.illegalCode op) := by
  simp only [decodeCommand]
  split
  case h_21 => rfl
  all_goals omega

theorem carriedOperands_isSome (c : FuncClass) (h l : Byte) (rest : List Byte) :
    ∃ v, carriedOperands c (h :: l :: rest) = some v := by
  cases c <;> exact ⟨_, rfl⟩

/-- A payload with a place for `value1` carries the operands of `BUILD_REQUEST`, unless its function code has no shape. -/
theorem otherForm_cases (a fc : Byte) (reg : U16) (h l : Byte) (rest : List Byte) :
    otherForm a fc reg (h :: l :: rest) = .rejected (.noShape a fc reg) ∨
    ∃ v1 v2, otherForm a fc reg (h :: l :: rest) = .rejected (.otherBody a fc reg v1 v2) := by
  unfold otherForm
  cases funcClass fc with
  | none => exact .inl rfl
  | some c =>
    obtain ⟨v, hv⟩ := carriedOperands_isSome c h l rest
    exact .inr ⟨v.1, v.2, by simp only [hv]⟩

theorem payloadOf_cases (a fc : Byte) (reg : U16) (pl : List Byte) (o : Option Instr) :
    (∃ i, payloadOf a fc reg pl o = .instr i) ∨ payloadOf a fc reg pl o = otherForm a fc reg pl := by
  cases o with
  | none => exact .inr rfl
  | some i => exact .inl ⟨i, rfl⟩

/-- A body is a form, or read for the operands it carries. -/
theorem decodeForm_cases (a fc : Byte) (reg : U16) (pl : List Byte) :
    (∃ i, decodeForm a fc reg pl = .instr i) ∨ decodeForm a fc reg pl = otherForm a fc reg pl := by
  unfold decodeForm
  split
  · exact payloadOf_cases ..
  · split
    case h_9 => exact .inr rfl
    all_goals exact payloadOf_cases ..

/-- A body of six bytes or more is an instruction, or carries the operands of `BUILD_REQUEST` (`VALUE1` apart when its function
code has no shape). -/
theorem decode_request_cases {body : List Byte} (h : 6 ≤ body.length) :
    (∃ i, decode (.request body) = .instr i) ∨
    (∃ a fc reg, decode (.request body) = .rejected (.noShape a fc reg)) ∨
    (∃ a fc reg v1 v2, decode (.request body) = .rejected (.otherBody a fc reg v1 v2)) := by
  match body with
  | a :: fc :: rh :: rl :: vh :: vl :: rest =>
    simp only [decode, decodeBody]
    rcases decodeForm_cases a fc (wordOf rh rl) (vh :: vl :: rest) with ⟨i, hi⟩ | hother
    · exact .inl ⟨i, hi⟩
    · rw [hother]
      rcases otherForm_cases a fc (wordOf rh rl) vh vl rest with hn | ⟨v1, v2, ho⟩
      · exact .inr (.inl ⟨_, _, _, hn⟩)
      · exact .inr (.inr ⟨_, _, _, _, _, ho⟩)

end Sys2Proof

namespace Sys2Proof.Machine

/-! ### Latching (R112) -/

theorem Operands.latchData_of_lt (o : Operands) {data : List Byte} (h : 254 < data.length) : o.latchData data = o :=
  if_neg (Nat.not_le.mpr h)

theorem Operands.latchCoils_of_lt (o : Operands) {coils : List Bool} (h : 2039 < coils.length) : o.latchCoils coils = o :=
  if_neg (Nat.not_le.mpr h)

/-- `value2` is latched into its own buffer and nowhere else. -/
theorem Operands.latchValue2_frame (o : Operands) (fc : Byte) (v2 : Value2) :
    (o.latchValue2 fc v2).devAddr = o.devAddr ∧ (o.latchValue2 fc v2).func = o.func ∧
    (o.latchValue2 fc v2).regAddr = o.regAddr ∧ (o.latchValue2 fc v2).value1 = o.value1 := by
  unfold Operands.latchValue2 Operands.latchData Operands.latchCoils
  repeat' split
  all_goals exact ⟨rfl, rfl, rfl, rfl⟩

/-- A function code other than those of the two multiple writes latches no `value2` (R150). -/
theorem Operands.latchValue2_of_ne (o : Operands) {fc : Byte} (hr : fc ≠ 0x10) (hc : fc ≠ 0x0F) (v2 : Value2) :
    o.latchValue2 fc v2 = o := by
  cases v2 with
  | absent => rfl
  | data _ => exact if_neg hr
  | coils _ => exact if_neg hc

/-! ### The checks of a request, by cause (R117 to R119, R291) -/

theorem requestCheck_of_address {o : Operands} (h : 248 ≤ o.devAddr.toNat) (d n : Nat) : requestCheck o d n = some 2 :=
  if_pos h

theorem requestCheck_of_noShape {o : Operands} (ha : o.devAddr.toNat ≤ 247) (hc : funcClass o.func = none) (d n : Nat) :
    requestCheck o d n = some 5 := by
  rw [requestCheck, if_neg (by omega), hc]

theorem requestCheck_of_shape {o : Operands} (ha : o.devAddr.toNat ≤ 247) {c : FuncClass} (hc : funcClass o.func = some c)
    (d n : Nat) : requestCheck o d n = shapeCheck c o.value1 d n := by
  rw [requestCheck, if_neg (by omega), hc]

/-- A request with a legal address and a function code that has a shape is held to the checks of that shape. -/
theorem requestCheck_latched (o : Operands) {a fc : Byte} (ha : a.toNat ≤ 247) {c : FuncClass} (hc : funcClass fc = some c)
    (reg v1 : U16) (v2 : Value2) (d n : Nat) :
    requestCheck ((o.latch a fc reg v1).latchValue2 fc v2) d n = shapeCheck c v1 d n := by
  obtain ⟨haddr, hfunc, -, hvalue⟩ := (o.latch a fc reg v1).latchValue2_frame fc v2
  rw [requestCheck_of_shape (by rw [haddr]; exact ha) (by rw [hfunc]; exact hc), hvalue]
  rfl

/-- The checks of Write Multiple Registers, for a count whose data fit (R118). -/
theorem shapeCheck_registers {v1 : U16} (h : v1.toNat ≤ 127) (d n : Nat) :
    shapeCheck .multipleRegisters v1 d n = if d = 2 * v1.toNat then none else some 4 := by
  rw [shapeCheck, if_neg (by omega), ite_not]

/-- Data longer than `WDATA` are longer than a count that fits asks for (R112, R118). -/
theorem shapeCheck_registers_of_long {d : Nat} (h : 254 < d) (v1 : U16) (n : Nat) :
    shapeCheck .multipleRegisters v1 d n = some (if 127 < v1.toNat then 3 else 4) := by
  rw [shapeCheck]
  split
  · rfl
  · rw [if_pos (by omega)]

/-- Coils longer than `WBITS` are longer than a count that fits asks for (R112, R118). -/
theorem shapeCheck_coils_of_long {n : Nat} (h : 2039 < n) (v1 : U16) (d : Nat) :
    shapeCheck .multipleCoils v1 d n = some (if 2039 < v1.toNat then 3 else 4) := by
  rw [shapeCheck]
  split
  · rfl
  · rw [if_pos (by omega)]

/-! ### The body of Write Multiple Registers (R96, R158) -/

/-- Data of the length the count asks for are the data of the request's body. -/
theorem body_of_data (o : Operands) (a : Byte) (reg : U16) {v1 : U16} {data : List Byte} (hfit : v1.toNat ≤ 127)
    (hlen : data.length = 2 * v1.toNat) :
    ((o.latch a 0x10 reg v1).latchValue2 0x10 (.data data)).body =
      [a, 0x10] ++ be16 reg ++ [0x00, lo v1, BitVec.ofNat 8 (2 * v1.toNat)] ++ data := by
  have hlatch : (o.latch a 0x10 reg v1).latchValue2 0x10 (.data data) =
      { o.latch a 0x10 reg v1 with wData := writeFront o.wData data, wLen := BitVec.ofNat 8 data.length } :=
    if_pos (by simp only [Config.wDataMax]; omega)
  have htake : (writeFront o.wData data).take (2 * v1.toNat) = data := by rw [← hlen, take_writeFront]
  rw [hlatch]
  change requestBody a 0x10 reg v1 ((writeFront o.wData data).take (2 * v1.toNat)) (o.wBits.take v1.toNat) = _
  rw [htake]
  rfl

/-! ### The ends of a command on an idle port -/

theorem raise_of_idle {s : State} (hb : s.busy = false) (o : Operands) (k : Byte) :
    raise k { s with opnd := o } =
      { s with opnd := o, result := { status := .protocolViolation, errInfo := k, ret := .none } } := by
  simp only [raise, endCommand, hb]

theorem endOk_of_idle {s : State} (hb : s.busy = false) (o : Operands) (f : TxFrame) (r : Ret) :
    endOk r { s with opnd := o, tx := f } =
      { s with opnd := o, tx := f, result := { status := .ok, errInfo := 0, ret := r } } := by
  simp only [endOk, endCommand, hb]

section
variable {s : State} {i : Instr} {a fc : Byte} {reg v1 : U16} {v2 : Value2} {o : Operands}

/-- What acts as `BUILD_REQUEST` is refused with the cause of its checks. -/
theorem refuses_of_buildRequestOp {k : Byte} (hb : s.busy = false)
    (ho : (s.opnd.latch a fc reg v1).latchValue2 fc v2 = o) (hi : exec i s = execBuildRequest a fc reg v1 v2 s)
    (hk : requestCheck o (dataLength o v2) (coilsLength o v2) = some k) : Refuses s i o k := by
  rw [Refuses, hi, execBuildRequest, whenIdle_idle hb, buildRequestOp, ho, hk, ← raise_of_idle hb]
  rfl

/-- What acts as `BUILD_REQUEST` and passes its checks builds the frame of its operands (R150). -/
theorem builds_of_buildRequestOp {body : List Byte} (hb : s.busy = false)
    (ho : (s.opnd.latch a fc reg v1).latchValue2 fc v2 = o) (hi : exec i s = execBuildRequest a fc reg v1 v2 s)
    (hk : requestCheck o (dataLength o v2) (coilsLength o v2) = none) (hbody : o.body = body) : Builds s i o body := by
  rw [Builds, hi, execBuildRequest, whenIdle_idle hb, buildRequestOp, ho, hk, ← endOk_of_idle hb, ← store_withCrc, ← hbody]
  simp only [endChecked, buildFrame, TxFrame.store, Operands.frame, length_withCrc]

/-- An Arbiter command is refused with the cause of its checks (R216). -/
theorem refuses_of_arbiterOp {d n : Nat} {k : Byte} (hb : s.busy = false)
    (ho : (s.opnd.latch a fc reg v1).latchValue2 fc v2 = o)
    (hi : exec i s =
      whenIdle s fun s => .next (arbiterOp ((s.opnd.latch a fc reg v1).latchValue2 fc v2) d n s))
    (hk : requestCheck o d n = some k) : Refuses s i o k := by
  rw [Refuses, hi, whenIdle_idle hb, arbiterOp, ho, hk, ← raise_of_idle hb]
  rfl

/-- Whatever `value2` was latched, an address above 247 is refused with cause 2 (R117). -/
theorem requestCheck_of_latched_address (o : Operands) (ha : 248 ≤ a.toNat) (d n : Nat) :
    requestCheck ((o.latch a fc reg v1).latchValue2 fc v2) d n = some 2 := by
  obtain ⟨haddr, -⟩ := (o.latch a fc reg v1).latchValue2_frame fc v2
  exact requestCheck_of_address (by rw [haddr]; exact ha) d n

theorem refuses_address_of_buildRequestOp (hb : s.busy = false) (ha : 248 ≤ a.toNat)
    (hi : exec i s = execBuildRequest a fc reg v1 v2 s) :
    ∃ o : Operands, o.devAddr = a ∧ o.regAddr = reg ∧ Refuses s i o 2 := by
  obtain ⟨haddr, -, hreg, -⟩ := (s.opnd.latch a fc reg v1).latchValue2_frame fc v2
  exact ⟨_, haddr, hreg, refuses_of_buildRequestOp hb rfl hi (requestCheck_of_latched_address _ ha _ _)⟩

theorem refuses_address_of_arbiterOp {d n : Nat} (v2 : Value2) (hb : s.busy = false) (ha : 248 ≤ a.toNat)
    (hi : exec i s =
      whenIdle s fun s => .next (arbiterOp ((s.opnd.latch a fc reg v1).latchValue2 fc v2) d n s)) :
    ∃ o : Operands, o.devAddr = a ∧ o.regAddr = reg ∧ Refuses s i o 2 := by
  obtain ⟨haddr, -, hreg, -⟩ := (s.opnd.latch a fc reg v1).latchValue2_frame fc v2
  exact ⟨_, haddr, hreg, refuses_of_arbiterOp hb rfl hi (requestCheck_of_latched_address _ ha _ _)⟩

end

/-! ### The Host's move -/

theorem step_of_host {s : State} {rest : List Move} {p : Presented} (h : s.env.moves = .host p :: rest) :
    step s = hostMove p (withMoves s rest) := by
  simp only [step, nextMove, h]
  rfl

end Sys2Proof.Machine

open Sys2Proof Sys2Proof.Machine

/-- Settles O21: the bytes of `bigEndian` are base 256 digits, and `bytesNeeded` says how many there must be. -/
theorem blockIntegerIsBigEndian : Obligations.BlockIntegerIsBigEndian := by
  refine ⟨fun count v => ⟨foldl_blockBytes count v, fun hv => ?_, lt_length_blockBytes⟩, ?_⟩
  · rw [blockBytes_of_lt hv]
    exact ⟨length_bigEndian .., fun j k hj hk => getLsbD_getD_bigEndian v hj hk⟩
  · intro s a reg count v hb ha hcount d short o
    have ho : (s.opnd.latch a 0x10 reg count).latchValue2 0x10 (.data d) = o := rfl
    have hcheck (n : Nat) : requestCheck o d.length n = if d.length = 2 * count.toNat then none else some 4 := by
      rw [← ho, requestCheck_latched _ ha rfl, shapeCheck_registers hcount]
    constructor
    · intro hv
      have hlen : d.length = 2 * count.toNat := by rw [show d = _ from blockBytes_of_lt hv, length_bigEndian]
      exact builds_of_buildRequestOp hb ho rfl ((hcheck _).trans (if_pos hlen)) (body_of_data s.opnd a reg hcount hlen)
    · intro hv
      have hlen : d.length ≠ 2 * count.toNat := (lt_length_blockBytes hv).ne'
      exact ⟨refuses_of_buildRequestOp hb ho rfl ((hcheck _).trans (if_neg hlen)),
        refuses_of_arbiterOp hb ho rfl ((hcheck 0).trans (if_neg hlen))⟩

/-- Settles O24: the address is the first of a request's checks, and the first of `FW_START`'s in an idle Sequencer. -/
theorem illegalAddressIsRefused : Obligations.IllegalAddressIsRefused := by
  intro s a hb ha
  refine ⟨fun fc code reg v1 v2 st data coils => ?_, fun image hidle haddr => ?_⟩
  · have build {i : Instr} {fc : Byte} {v2 : Value2} (hi : exec i s = execBuildRequest a fc reg v1 v2 s) :=
      refuses_address_of_buildRequestOp hb ha hi
    simp only [List.forall_mem_cons]
    exact ⟨build rfl, build rfl, build rfl, build rfl, build rfl, build rfl, build rfl, build rfl, build rfl, build rfl,
      refuses_address_of_arbiterOp .absent hb ha rfl, refuses_address_of_arbiterOp .absent hb ha rfl,
      refuses_address_of_arbiterOp .absent hb ha rfl, refuses_address_of_arbiterOp .absent hb ha rfl,
      refuses_address_of_arbiterOp (fc := 0x10) (.data data) hb ha rfl,
      refuses_address_of_arbiterOp (fc := 0x0F) (.coils coils) hb ha rfl, nofun⟩
  · have hcheck : fwCheck image s = some 2 := by simp [fwCheck, hidle, haddr, ha]
    rw [Refuses, exec, execFwStart, whenIdle_idle hb, hcheck, ← raise_of_idle hb]
    rfl

/-- Settles O25: an operand that does not fit its buffer is longer than any count that fits asks for. -/
theorem longOperandsAreNotLatched : Obligations.LongOperandsAreNotLatched := by
  intro s a reg v1 hb ha
  constructor
  · intro data hdata o
    have ho : (s.opnd.latch a 0x10 reg v1).latchValue2 0x10 (.data data) = o := Operands.latchData_of_lt _ hdata
    have hcheck (n : Nat) : requestCheck o data.length n = some (if 127 < v1.toNat then 3 else 4) := by
      rw [← ho, requestCheck_latched _ ha rfl, shapeCheck_registers_of_long hdata]
    simp only [List.forall_mem_cons]
    exact ⟨refuses_of_buildRequestOp hb ho rfl (hcheck _), refuses_of_buildRequestOp hb ho rfl (hcheck _),
      refuses_of_arbiterOp hb ho rfl (hcheck 0), nofun⟩
  · intro coils hcoils o
    have ho : (s.opnd.latch a 0x0F reg v1).latchValue2 0x0F (.coils coils) = o := Operands.latchCoils_of_lt _ hcoils
    have hcheck (d : Nat) : requestCheck o d coils.length = some (if 2039 < v1.toNat then 3 else 4) := by
      rw [← ho, requestCheck_latched _ ha rfl, shapeCheck_coils_of_long hcoils]
    simp only [List.forall_mem_cons]
    exact ⟨refuses_of_buildRequestOp hb ho rfl (hcheck _), refuses_of_buildRequestOp hb ho rfl (hcheck _),
      refuses_of_arbiterOp hb ho rfl (hcheck 0), nofun⟩

/-- Settles O8: what a presentation decodes to is what the step does with it. -/
theorem stepRunsDecodedInstruction : Obligations.StepRunsDecodedInstruction := by
  intro s p rest hm
  refine ⟨fun i hi => ?_, fun a fc reg v1 v2 hr => ?_, fun a fc reg hr => ?_, fun body hp hlen => ?_⟩
  · rw [step_of_host hm, hostMove, hi]
  · rw [step_of_host hm, hostMove, hr]
    rfl
  · rw [step_of_host hm, hostMove, hr]
    rfl
  · subst hp
    rw [step_of_host hm, hostMove]
    rcases decode_request_cases hlen with ⟨i, hi⟩ | ⟨a, fc, reg, hr⟩ | ⟨a, fc, reg, v1, v2, hr⟩
    · rw [hi]
      exact exec_total i _
    · rw [hr]
      exact exec_total (.buildRequest a fc reg s.opnd.value1 .absent) (withMoves s rest)
    · rw [hr]
      exact exec_total (.buildRequest a fc reg v1 v2) (withMoves s rest)

/-- Settles O10: the decoder answers an unlisted code by its name, and an idle port raises cause 1 for it. -/
theorem illegalCodeRaisesOne : Obligations.IllegalCodeRaisesOne := by
  intro s op args rest hop hb hm
  rw [step_of_host hm, hostMove, decode, decodeCommand_of_illegal args hop]
  simp only [rejectedPresentation, illegalCommand]
  rw [whenIdle_idle (s := withMoves s rest) hb]
  exact congrArg Host.Outcome.next (raise_of_idle (s := withMoves s rest) hb s.opnd 1)

/-- Settles O23: such a code latches no `value2` and has no shape. -/
theorem unlistedFunctionCodeIsRefused : Obligations.UnlistedFunctionCodeIsRefused := by
  intro s a fc reg v1 v2 hb ha hfc
  have hregs : fc ≠ 0x10 := by rintro rfl; revert hfc; decide
  have hcoils : fc ≠ 0x0F := by rintro rfl; revert hfc; decide
  exact refuses_of_buildRequestOp hb (Operands.latchValue2_of_ne _ hregs hcoils v2) rfl
    (requestCheck_of_noShape ha (funcClass_of_unlisted hfc) _ _)

/-- Settles O43: every command but the two reads waits for `BUSY = 0`. -/
theorem busyPortAcceptsOnlyReads : Obligations.BusyPortAcceptsOnlyReads := by
  intro i s hb
  refine ⟨fun hr => ?_, fun hr => ?_⟩
  · cases i with simp only [exec]
    | regRead | bufRead => cases hr
    | _ => exact whenIdle_busy hb _
  · cases i with
    | regRead | bufRead => exact ⟨_, rfl⟩
    | _ => cases hr

end

section
/-!
SUPPORT. The CRC Engine (40_crc_engine.md). An iteration of R133 loses nothing, so `CRC` after the same bytes tells two values
apart; and while only zeros are shifted out, iterations are a plain shift. The residue of a frame and the single-bit change of
R137 rest on these two facts.
-/
namespace Sys2Proof.Machine

/-! ### The iterations (R133) -/

theorem crcShift_eq_xor (c : U16) : crcShift c = (c >>> 1) ^^^ (if c.getLsbD 0 then 0xA001 else 0) := by
  unfold crcShift
  split <;> simp

/-- The constant has its top bit set: the top bit of the result is the bit that was dropped. -/
theorem getLsbD_crcShift_top (c : U16) : (crcShift c).getLsbD 15 = c.getLsbD 0 := by
  rw [crcShift_eq_xor, BitVec.getLsbD_xor, BitVec.getLsbD_ushiftRight, BitVec.getLsbD_of_ge c (1 + 15) (by decide)]
  cases c.getLsbD 0 <;> decide

theorem crcShift_injective : Function.Injective crcShift := by
  intro c d h
  have hlow : c.getLsbD 0 = d.getLsbD 0 := by rw [← getLsbD_crcShift_top, h, getLsbD_crcShift_top]
  have hshift : c >>> 1 = d >>> 1 := by
    rw [crcShift_eq_xor, crcShift_eq_xor, hlow] at h
    exact (BitVec.xor_left_inj _).mp h
  apply BitVec.eq_of_getLsbD_eq
  intro i _
  cases i with
  | zero => exact hlow
  | succ i => simpa [Nat.add_comm] using congrArg (·.getLsbD i) hshift

theorem crcShifts_eq_iterate (n : Nat) (c : U16) : crcShifts n c = crcShift^[n] c := by
  induction n generalizing c with
  | zero => rfl
  | succ n ih => exact ih (crcShift c)

theorem crcShifts_injective (n : Nat) : Function.Injective (crcShifts n) := by
  rw [show crcShifts n = crcShift^[n] from funext (crcShifts_eq_iterate n)]
  exact crcShift_injective.iterate n

/-- While the bits shifted out are 0, the constant is never used. -/
theorem crcShifts_of_low_zero {n : Nat} {c : U16} (h : ∀ i < n, c.getLsbD i = false) : crcShifts n c = c >>> n := by
  induction n generalizing c with
  | zero => simp [crcShifts]
  | succ n ih =>
    have hshift : crcShift c = c >>> 1 := by rw [crcShift, h 0 (by omega)]; rfl
    rw [crcShifts, hshift, ih, ← BitVec.shiftRight_add, Nat.add_comm]
    intro i hi
    rw [BitVec.getLsbD_ushiftRight]
    exact h _ (by omega)

/-! ### One byte -/

/-- R133 as the statements write it out. -/
theorem crcByte_eq_iterate (c : U16) (b : Byte) :
    crcByte c b = (fun c : U16 => if c.getLsbD 0 then (c >>> 1) ^^^ 0xA001 else c >>> 1)^[8] (c ^^^ b.setWidth 16) :=
  crcShifts_eq_iterate 8 _

theorem crcByte_left_injective (b : Byte) : Function.Injective (crcByte · b) := fun _ _ h =>
  (BitVec.xor_left_inj _).mp (crcShifts_injective 8 h)

theorem crcByte_right_injective (c : U16) : Function.Injective (crcByte c) := by
  intro a b h
  have hwide : a.setWidth 16 = b.setWidth 16 := (BitVec.xor_right_inj _).mp (crcShifts_injective 8 h)
  simpa using congrArg (BitVec.setWidth 8) hwide

theorem getLsbD_wordOf (h l : Byte) (i : Nat) :
    (wordOf h l).getLsbD i = if i < 8 then l.getLsbD i else h.getLsbD (i - 8) :=
  BitVec.getLsbD_append

theorem wordOf_xor_low (h l : Byte) : wordOf h l ^^^ l.setWidth 16 = wordOf h 0 := by
  apply BitVec.eq_of_getLsbD_eq
  intro i hi
  rw [BitVec.getLsbD_xor, getLsbD_wordOf, getLsbD_wordOf, BitVec.getLsbD_setWidth]
  by_cases hlow : i < 8
  · simp [hlow, hi]
  · simp [hlow, BitVec.getLsbD_of_ge l i (by omega)]

/-- Eight iterations shift an empty low byte out. -/
theorem crcShifts_wordOf_zero (h : Byte) : crcShifts 8 (wordOf h 0) = h.setWidth 16 := by
  rw [crcShifts_of_low_zero fun i hi => by simp [getLsbD_wordOf, hi]]
  apply BitVec.eq_of_getLsbD_eq
  intro i hi
  simp [getLsbD_wordOf, hi]

/-- Its own low byte takes a running value to its high byte. -/
theorem crcByte_wordOf (h l : Byte) : crcByte (wordOf h l) l = h.setWidth 16 := by
  rw [crcByte, wordOf_xor_low, crcShifts_wordOf_zero]

theorem crcByte_setWidth_self (b : Byte) : crcByte (b.setWidth 16) b = 0 := by
  rw [crcByte, BitVec.xor_self]
  rfl

/-! ### Sequences (R134, R137) -/

theorem crc16_append (s t : List Byte) : crc16 (s ++ t) = crcFrom (crc16 s) t := crcFrom_append _ s t

theorem crcFrom_injective (s : List Byte) : Function.Injective (crcFrom · s) := by
  induction s with
  | nil => exact fun _ _ h => h
  | cons b s ih => exact fun _ _ h => crcByte_left_injective b (ih h)

/-- Two bytes leave 0 exactly when they are the running value, low byte first: they do, and no other value is left at 0. -/
theorem crcFrom_pair_eq_zero_iff {c : U16} {l h : Byte} : crcFrom c [l, h] = 0 ↔ c = wordOf h l := by
  have hzero : crcFrom (wordOf h l) [l, h] = 0 := by
    rw [crcFrom_cons, crcFrom_cons, crcFrom_nil, crcByte_wordOf, crcByte_setWidth_self]
  rw [← hzero]
  exact (crcFrom_injective [l, h]).eq_iff

theorem crcOk_append_pair (s : List Byte) (l h : Byte) : crcOk (s ++ [l, h]) = true ↔ crc16 s = wordOf h l := by
  simp [crcOk, u16le]

/-- R137 (e): the comparison of `crc_ok` asks for a zero residue. -/
theorem crcOk_iff_residue {r : List Byte} (hr : 2 ≤ r.length) : crcOk r = true ↔ crc16 r = 0 := by
  obtain ⟨l, h, hlast⟩ := List.length_eq_two.mp (show (r.drop (r.length - 2)).length = 2 by simp; omega)
  rw [← List.take_append_drop (r.length - 2) r, hlast, crcOk_append_pair, crc16_append, crcFrom_pair_eq_zero_iff]

/-! ### The commands (R132, R133) -/

theorem endOk_crc_of_idle {s : State} (hb : s.busy = false) (c : U16) (r : Ret) :
    endOk r { s with crc := c } = { s with crc := c, result := { status := .ok, errInfo := 0, ret := r } } := by
  simp only [endOk, endCommand, hb]

theorem exec_crcInit {s : State} (hb : s.busy = false) :
    exec .crcInit s = .next { s with crc := 0xFFFF, result := { status := .ok, errInfo := 0, ret := .none } } := by
  rw [exec, execCrcInit, whenIdle_idle hb, endOk_crc_of_idle hb, crcSeed]

theorem exec_crcByte {s : State} (hb : s.busy = false) (b : Byte) :
    exec (.crcByte b) s = .next { s with
      crc := crcByte s.crc b, result := { status := .ok, errInfo := 0, ret := .word (crcByte s.crc b) } } := by
  rw [exec, execCrcByte, whenIdle_idle hb, endOk_crc_of_idle hb]

/-- A run that begins with the presentation of an instruction goes on from where the instruction led. -/
theorem driven_encode {s t : State} {i : Instr} {ms : List Move} (hwf : i.wellFormed = true)
    (he : exec i (withMoves s ms) = .next t) (ht : t.env.moves = ms) :
    driven s (.host (encode i) :: ms) = driven t ms := by
  refine driven_cons ?_ ht
  rw [step_of_host (withMoves_moves s _), hostMove, decode_encode hwf]
  exact he

theorem driven_crcInit {s : State} (hb : s.busy = false) (ms : List Move) :
    ∃ t, driven s (.host (encode .crcInit) :: ms) = driven t ms ∧ t.busy = false ∧ t.crc = crcSeed :=
  ⟨_, driven_encode rfl (exec_crcInit (s := withMoves s ms) hb) rfl, hb, rfl⟩

theorem driven_crcByte {s : State} (hb : s.busy = false) (b : Byte) (ms : List Move) :
    ∃ t, driven s (.host (encode (.crcByte b)) :: ms) = driven t ms ∧ t.busy = false ∧ t.crc = crcByte s.crc b :=
  ⟨_, driven_encode rfl (exec_crcByte (s := withMoves s ms) hb b) rfl, hb, rfl⟩

/-- `CRC_BYTE` of each byte of a sequence (R135), from any value of `CRC`. -/
theorem driven_crcBytes {s : State} (hb : s.busy = false) (bs : List Byte) :
    ∃ t, driven s (bs.map fun b => .host (encode (.crcByte b))) = .next t ∧ t.crc = crcFrom s.crc bs := by
  induction bs generalizing s with
  | nil => exact ⟨_, driven_nil s, rfl⟩
  | cons b bs ih =>
    obtain ⟨s1, hrun, hb1, hcrc⟩ := driven_crcByte hb b (bs.map fun b => .host (encode (.crcByte b)))
    rw [List.map_cons, hrun, crcFrom_cons, ← hcrc]
    exact ih hb1

end Sys2Proof.Machine

open Sys2Proof Sys2Proof.Machine

/-- Settles O13: `CRC_INIT` puts the seed, and each `CRC_BYTE` takes one byte of the fold. -/
theorem streamingCrcIsCrc16 : Obligations.StreamingCrcIsCrc16 := by
  intro s bs hb
  obtain ⟨s1, hrun, hb1, hcrc⟩ := driven_crcInit hb (bs.map fun b => .host (encode (.crcByte b)))
  rw [hrun, crc16, ← hcrc]
  exact driven_crcBytes hb1 bs

/-- Settles O14: two bytes take a running value to 0 exactly when they are that value, low byte first. -/
theorem crcResidue : Obligations.CrcResidue := by
  refine ⟨fun s => ?_, fun r => crcOk_iff_residue⟩
  rw [crc16_append, crcFrom_pair_eq_zero_iff, wordOf_hi_lo]

/-- Settles O15: the running values differ after the changed byte, and no later byte makes them equal again. -/
theorem crcSeesSingleBitChange : Obligations.CrcSeesSingleBitChange := by
  intro before after b k hk h
  rw [List.append_assoc, List.append_assoc, crc16_append, crc16_append] at h
  have hbyte : b = b ^^^ ((1 : Byte) <<< k) := crcByte_right_injective _ (crcFrom_injective after h)
  have hbit := congrArg (·.getLsbD k) hbyte
  simp [hk] at hbit

/-- Settles O11: the commands' equations, with the iterations written out. -/
theorem crcCommands : Obligations.CrcCommands := by
  intro b s
  rw [← crcByte_eq_iterate]
  exact ⟨rfl, rfl, fun hb => ⟨exec_crcInit hb, exec_crcByte hb b⟩⟩

/-- Settles O12: a byte at the end is one more byte of the fold. -/
theorem crcFunction : Obligations.CrcFunction :=
  ⟨rfl, fun s b => (crc16_append s [b]).trans (crcByte_eq_iterate _ b)⟩

end

section
/-!
SUPPORT. The Frame Codec's encoder (41_frame_encoder.md): the frame of each form, and the checks that refuse a form. A function
code whose payload is made from `VALUE1` alone ignores `value2`; the two multiple writes take their field from `WBITS` and
`WDATA`, whether it was just latched or stood there before.
-/
namespace Sys2Proof

/-- R159: bit 7 set, and the code in the seven bits below. -/
theorem exceptionCode_eq_or (code : BitVec 7) : exceptionCode code = 0x80 ||| code.setWidth 8 := by
  apply BitVec.eq_of_getLsbD_eq
  intro j hj
  obtain hj | rfl : j < 7 ∨ j = 7 := by omega
  · have hbit : (0x80 : Byte).getLsbD j = false := by interval_cases j <;> rfl
    simp only [exceptionCode, BitVec.getLsbD_append, BitVec.getLsbD_or, BitVec.getLsbD_setWidth, hbit]
    simp [hj, Nat.lt_succ_of_lt hj]
  · rw [exceptionCode_getLsbD, BitVec.getLsbD_or]
    rfl

theorem be16_coilWord (v1 : U16) : be16 (coilWord v1) = if v1 = 0 then [0x00, 0x00] else [0xFF, 0x00] := by
  unfold coilWord
  split <;> rfl

/-- Bit `k` of byte `j` of packed coils is coil `8j + k`, and 0 beyond the coils (R107, R108). -/
theorem getLsbD_getD_packCoils {m j k : Nat} (coils : List Bool) (hj : j < m) (hk : k < 8) :
    ((packCoils m coils).getD j 0).getLsbD k = coils.getD (8 * j + k) false := by
  rw [← coilAt_packCoils (m := m) coils (by omega), coilAt, show (8 * j + k) / 8 = j by omega,
    show (8 * j + k) % 8 = k by omega]

end Sys2Proof

namespace Sys2Proof.Machine

/-! ### Forms whose payload is made from `VALUE1` alone (R151 to R156, R159) -/

/-- A `value2` belongs to the two multiple writes only (R150). -/
theorem Operands.latchValue2_of_class (o : Operands) {fc : Byte} {c : FuncClass} (hc : funcClass fc = some c)
    (hregs : c ≠ .multipleRegisters) (hcoils : c ≠ .multipleCoils) (v2 : Value2) : o.latchValue2 fc v2 = o := by
  refine o.latchValue2_of_ne ?_ ?_ v2
  · rintro rfl; exact hregs (Option.some.inj hc).symm
  · rintro rfl; exact hcoils (Option.some.inj hc).symm

section
variable {s : State} {i : Instr} {a fc : Byte} {reg v1 : U16} {v2 : Value2} {o : Operands} {c : FuncClass}

/-- With a legal address and a function code that has a shape, what acts as `BUILD_REQUEST` is refused with the cause of that
shape's checks. -/
theorem refuses_of_shapeCheck {k : Byte} (hb : s.busy = false) (ha : a.toNat ≤ 247) (hc : funcClass fc = some c)
    (ho : (s.opnd.latch a fc reg v1).latchValue2 fc v2 = o) (hi : exec i s = execBuildRequest a fc reg v1 v2 s)
    (hk : shapeCheck c v1 (dataLength o v2) (coilsLength o v2) = some k) : Refuses s i o k := by
  refine refuses_of_buildRequestOp hb ho hi ?_
  rw [← hk, ← ho, requestCheck_latched _ ha hc]

/-- With a legal address and a function code whose shape's checks pass, what acts as `BUILD_REQUEST` builds the frame of its
operands. -/
theorem builds_of_shapeCheck {body : List Byte} (hb : s.busy = false) (ha : a.toNat ≤ 247) (hc : funcClass fc = some c)
    (ho : (s.opnd.latch a fc reg v1).latchValue2 fc v2 = o) (hi : exec i s = execBuildRequest a fc reg v1 v2 s)
    (hk : shapeCheck c v1 (dataLength o v2) (coilsLength o v2) = none) (hbody : o.body = body) : Builds s i o body := by
  refine builds_of_buildRequestOp hb ho hi ?_ hbody
  rw [← hk, ← ho, requestCheck_latched _ ha hc]

/-- `BUILD_REQUEST`, whatever its `value2`, and the request form of the same function code build the same frame. -/
theorem builds_valueOnly {pl : List Byte} (hb : s.busy = false) (ha : a.toNat ≤ 247) (hc : funcClass fc = some c)
    (hregs : c ≠ .multipleRegisters) (hcoils : c ≠ .multipleCoils) (hcheck : ∀ d n, shapeCheck c v1 d n = none)
    (hpl : ∀ data coils, payload c v1 data coils = pl) (hi : exec i s = execBuildRequest a fc reg v1 .absent s) :
    Builds s (.buildRequest a fc reg v1 v2) (s.opnd.latch a fc reg v1) ([a, fc] ++ be16 reg ++ pl) ∧
    Builds s i (s.opnd.latch a fc reg v1) ([a, fc] ++ be16 reg ++ pl) := by
  have hbody : (s.opnd.latch a fc reg v1).body = [a, fc] ++ be16 reg ++ pl := by
    rw [← hpl (s.opnd.wData.take (2 * v1.toNat)) (s.opnd.wBits.take v1.toNat)]
    simp only [Operands.body, Operands.latch, requestBody, hc]
  exact ⟨builds_of_shapeCheck hb ha hc (Operands.latchValue2_of_class _ hc hregs hcoils v2) rfl (hcheck _ _) hbody,
    builds_of_shapeCheck (v2 := .absent) hb ha hc rfl hi (hcheck _ _) hbody⟩

/-- `BUILD_REQUEST`, whatever its `value2`, and the request form of the same function code are refused alike. -/
theorem refuses_valueOnly {k : Byte} (hb : s.busy = false) (ha : a.toNat ≤ 247) (hc : funcClass fc = some c)
    (hregs : c ≠ .multipleRegisters) (hcoils : c ≠ .multipleCoils) (hcheck : ∀ d n, shapeCheck c v1 d n = some k)
    (hi : exec i s = execBuildRequest a fc reg v1 .absent s) :
    Refuses s (.buildRequest a fc reg v1 v2) (s.opnd.latch a fc reg v1) k ∧
    Refuses s i (s.opnd.latch a fc reg v1) k :=
  ⟨refuses_of_shapeCheck hb ha hc (Operands.latchValue2_of_class _ hc hregs hcoils v2) rfl (hcheck _ _),
    refuses_of_shapeCheck (v2 := .absent) hb ha hc rfl hi (hcheck _ _)⟩

end

/-! ### The two multiple writes (R157, R158) -/

theorem Operands.latchData_of_le (o : Operands) {data : List Byte} (h : data.length ≤ 254) :
    o.latchData data = { o with wData := inFront data o.wData, wLen := BitVec.ofNat 8 data.length } :=
  if_pos h

theorem Operands.latchCoils_of_le (o : Operands) {coils : List Bool} (h : coils.length ≤ 2039) :
    o.latchCoils coils =
      { o with wBits := coils ++ o.wBits.drop coils.length, wbLen := BitVec.ofNat 16 coils.length } :=
  if_pos h

/-- The body of Write Multiple Coils (R97, R157): the first coils of `WBITS`, packed. -/
theorem Operands.body_of_coils {o : Operands} (h : o.func = 0x0F) :
    o.body = [o.devAddr, 0x0F] ++ be16 o.regAddr ++ be16 o.value1 ++ [BitVec.ofNat 8 (o.value1.toNat / 8 + 1)] ++
      packCoils (coilBytes o.value1) (o.wBits.take o.value1.toNat) := by
  rw [Operands.body, h]
  rfl

/-- The body of Write Multiple Registers (R96, R158): the first bytes of `WDATA`. -/
theorem Operands.body_of_registers {o : Operands} (h : o.func = 0x10) :
    o.body = [o.devAddr, 0x10] ++ be16 o.regAddr ++
      [0x00, lo o.value1, BitVec.ofNat 8 (2 * o.value1.toNat)] ++ o.wData.take (2 * o.value1.toNat) := by
  rw [Operands.body, h]
  rfl

/-- The checks of Write Multiple Coils, for a count that fits (R118). -/
theorem shapeCheck_coils {v1 : U16} (h : v1.toNat ≤ 2039) (d n : Nat) :
    shapeCheck .multipleCoils v1 d n = if n = v1.toNat then none else some 4 := by
  rw [shapeCheck, if_neg (by omega), ite_not]

theorem shapeCheck_coils_of_lt {v1 : U16} (h : 2039 < v1.toNat) (d n : Nat) :
    shapeCheck .multipleCoils v1 d n = some 3 := if_pos h

theorem shapeCheck_registers_of_lt {v1 : U16} (h : 127 < v1.toNat) (d n : Nat) :
    shapeCheck .multipleRegisters v1 d n = some 3 := if_pos h

end Sys2Proof.Machine

open Sys2Proof Sys2Proof.Machine

/-- Settles O17: none of the five forms has a check beyond the address, and each has `be16(VALUE1)` for its payload. -/
theorem plainFormsBuildTheirFrames : Obligations.PlainFormsBuildTheirFrames := by
  intro s a reg v1 v2 hb ha
  simp only [List.forall_mem_cons]
  have reads {fc : Byte} {i : Instr} (hc : funcClass fc = some .readCount)
      (hi : exec i s = execBuildRequest a fc reg v1 .absent s) :=
    builds_valueOnly (v2 := v2) hb ha hc nofun nofun (fun _ _ => rfl) (fun _ _ => rfl) hi
  exact ⟨reads rfl rfl, reads rfl rfl, reads rfl rfl, reads rfl rfl,
    builds_valueOnly (c := .singleRegister) hb ha rfl nofun nofun (fun _ _ => rfl) (fun _ _ => rfl) rfl, nofun⟩

/-- Settles O18: the payload is the word that `VALUE1` being zero or not gives. -/
theorem singleCoilForm : Obligations.SingleCoilForm := by
  intro s a reg v1 v2 hb ha
  exact builds_valueOnly (c := .singleCoil) hb ha rfl nofun nofun (fun _ _ => rfl) (fun _ _ => be16_coilWord v1) rfl

/-- Settles O22: the payload is one byte, which the field-fit check keeps whole. -/
theorem exceptionClassForm : Obligations.ExceptionClassForm := by
  intro s a code reg v1 v2 hb ha
  rw [← exceptionCode_eq_or]
  have hc := funcClass_exceptionCode code
  exact ⟨fun hfit => builds_valueOnly hb ha hc nofun nofun (fun _ _ => if_neg (Nat.not_lt.mpr hfit)) (fun _ _ => rfl) rfl,
    fun hbig => refuses_valueOnly hb ha hc nofun nofun (fun _ _ => if_pos hbig) rfl⟩

/-- Settles O19: the coils of the frame are the first `VALUE1` of `WBITS`, packed. -/
theorem multipleCoilsForm : Obligations.MultipleCoilsForm := by
  intro s a reg v1 hb ha o packs body
  have hpacks (coils : List Bool) : packs coils (packCoils (coilBytes v1) (coils.take v1.toNat)) :=
    ⟨length_packCoils _ _, fun j k hj hk => getLsbD_getD_packCoils _ (by simpa using hj) hk⟩
  refine ⟨fun coils => ?_, fun hfit hlen => ?_, fun hbig => ?_, fun hfit hlen => ?_⟩
  · intro o2
    have ho (hc : coils.length ≤ 2039) : o.latchValue2 0x0F (.coils coils) = o2 := o.latchCoils_of_le hc
    have refuses {o' : Operands} {k : Byte} (ho : o.latchValue2 0x0F (.coils coils) = o')
        (hk : ∀ d, shapeCheck .multipleCoils v1 d coils.length = some k) :
        Refuses s (.buildRequest a 0x0F reg v1 (.coils coils)) o' k ∧
          Refuses s (.reqWriteMultipleCoils a reg v1 coils) o' k :=
      ⟨refuses_of_shapeCheck hb ha rfl ho rfl (hk _), refuses_of_shapeCheck hb ha rfl ho rfl (hk _)⟩
    refine ⟨fun hfit hlen => ?_, fun hc hbig => ?_, fun hc hfit hlen => ?_, fun hc => ?_⟩
    · have htake : o2.wBits.take v1.toNat = coils.take v1.toNat := by
        simp only [o2, ← hlen, List.take_left, List.take_length]
      have hbody : o2.body = body (packCoils (coilBytes v1) (coils.take v1.toNat)) := by
        rw [← htake]
        exact Operands.body_of_coils rfl
      have hok (d : Nat) := (shapeCheck_coils hfit d _).trans (if_pos hlen)
      exact ⟨_, hpacks coils, builds_of_shapeCheck hb ha rfl (ho (by omega)) rfl (hok _) hbody,
        builds_of_shapeCheck hb ha rfl (ho (by omega)) rfl (hok _) hbody⟩
    · exact refuses (ho hc) (shapeCheck_coils_of_lt hbig · _)
    · exact refuses (ho hc) fun d => (shapeCheck_coils hfit d _).trans (if_neg hlen)
    · exact refuses (o.latchCoils_of_lt hc) (shapeCheck_coils_of_long hc v1)
  · exact ⟨_, hpacks s.opnd.wBits, builds_of_shapeCheck (v2 := .absent) hb ha rfl rfl rfl
      ((shapeCheck_coils hfit _ _).trans (if_pos (congrArg BitVec.toNat hlen))) (Operands.body_of_coils rfl)⟩
  · exact refuses_of_shapeCheck (v2 := .absent) hb ha rfl rfl rfl (shapeCheck_coils_of_lt hbig _ _)
  · exact refuses_of_shapeCheck (v2 := .absent) hb ha rfl rfl rfl
      ((shapeCheck_coils hfit _ _).trans (if_neg fun h => hlen (BitVec.eq_of_toNat_eq h)))

/-- Settles O20: the bytes of the frame are the first `2 * VALUE1` of `WDATA`. -/
theorem multipleRegistersForm : Obligations.MultipleRegistersForm := by
  intro s a reg v1 hb ha o body
  refine ⟨fun data => ?_, fun hfit hlen => ?_, fun hbig => ?_, fun hfit hlen => ?_⟩
  · intro o2
    have ho (hd : data.length ≤ 254) : o.latchValue2 0x10 (.data data) = o2 := o.latchData_of_le hd
    have refuses {o' : Operands} {k : Byte} (ho : o.latchValue2 0x10 (.data data) = o')
        (hk : ∀ n, shapeCheck .multipleRegisters v1 data.length n = some k) :
        Refuses s (.buildRequest a 0x10 reg v1 (.data data)) o' k ∧
          Refuses s (.reqWriteMultipleRegisters a reg v1 data) o' k :=
      ⟨refuses_of_shapeCheck hb ha rfl ho rfl (hk _), refuses_of_shapeCheck hb ha rfl ho rfl (hk _)⟩
    refine ⟨fun hfit hlen => ?_, fun hd hbig => ?_, fun hd hfit hlen => ?_, fun hd => ?_⟩
    · have hbody : o2.body = body data := ho (by omega) ▸ body_of_data s.opnd a reg hfit hlen
      have hok (n : Nat) := (shapeCheck_registers hfit _ n).trans (if_pos hlen)
      exact ⟨builds_of_shapeCheck hb ha rfl (ho (by omega)) rfl (hok _) hbody,
        builds_of_shapeCheck hb ha rfl (ho (by omega)) rfl (hok _) hbody⟩
    · exact refuses (ho hd) (shapeCheck_registers_of_lt hbig _)
    · exact refuses (ho hd) fun n => (shapeCheck_registers hfit _ n).trans (if_neg hlen)
    · exact refuses (o.latchData_of_lt hd) (shapeCheck_registers_of_long hd v1)
  · exact builds_of_shapeCheck (v2 := .absent) hb ha rfl rfl rfl
      ((shapeCheck_registers hfit _ _).trans (if_pos hlen)) (Operands.body_of_registers rfl)
  · exact refuses_of_shapeCheck (v2 := .absent) hb ha rfl rfl rfl (shapeCheck_registers_of_lt hbig _ _)
  · exact refuses_of_shapeCheck (v2 := .absent) hb ha rfl rfl rfl
      ((shapeCheck_registers hfit _ _).trans (if_neg hlen))

end

section
/-!
SUPPORT. Where the frame in `TXBUF` comes from (41_frame_encoder.md R161): every operation leaves `TXBUF` as it is, or puts the
frame of the operand registers there.
-/
namespace Sys2Proof.Machine

theorem crcOk_withCrc (body : List Byte) : crcOk (withCrc body) = true :=
  (crcOk_append_pair body _ _).mpr (wordOf_hi_lo _).symm

/-- The frame in `TXBUF` is that of the operand registers, and its checksum is good. -/
def HoldsFrame (t : State) : Prop := t.tx.bytes = t.opnd.frame ∧ crcOk t.tx.bytes = true

/-- From `s` to `t` `TXBUF` stays, or `t` holds the frame of its operand registers. -/
def KeepsTxOrFrames (s t : State) : Prop := t.tx = s.tx ∨ HoldsFrame t

/-! ### The lengths of the frames that no check of a command bounds -/

theorem Operands.length_frame {o : Operands} {c : FuncClass} (hc : funcClass o.func = some c) :
    o.frame.length =
      6 + (payload c o.value1 (o.wData.take (2 * o.value1.toNat)) (o.wBits.take o.value1.toNat)).length := by
  rw [Operands.frame, length_withCrc, Operands.body, length_requestBody hc]
  omega

theorem Operands.latch_func (o : Operands) (a fc : Byte) (reg v1 : U16) : (o.latch a fc reg v1).func = fc := rfl

theorem length_frame_latch_singleRegister (o : Operands) (a : Byte) (reg v1 : U16) :
    (o.latch a 0x06 reg v1).frame.length = 8 := by
  have hc : funcClass (o.latch a 0x06 reg v1).func = some .singleRegister := by
    rw [Operands.latch_func]
    rfl
  simp only [Operands.length_frame hc, length_payload]

theorem length_frame_blockOperands (s : State) : (blockOperands s).frame.length ≤ 9 + 128 := by
  have hc : funcClass (blockOperands s).func = some .multipleRegisters := by
    rw [blockOperands, Operands.latchData_func, Operands.latch_func]
    rfl
  have hcount : 2 * (blockOperands s).value1.toNat = 128 := by
    rw [blockOperands, Operands.latchData_value1]
    rfl
  simp only [Operands.length_frame hc, length_payload, hcount, List.length_take]
  omega

namespace KeepsTxOrFrames
variable {s t : State}

/-- What was stored is what is read, and a frame's checksum is good by its making (R109). -/
theorem of_store {f : TxFrame} (htx : t.tx = f.store t.opnd.frame) (hlen : t.opnd.frame.length < 65536) :
    KeepsTxOrFrames s t := by
  have hbytes : t.tx.bytes = t.opnd.frame := by rw [htx, TxFrame.store_bytes _ _ hlen]
  exact .inr ⟨hbytes, by rw [hbytes]; exact crcOk_withCrc _⟩

theorem whenIdle {f : State → State} (he : whenIdle s (fun s => .next (f s)) = .next t)
    (hf : KeepsTxOrFrames s (f s)) : KeepsTxOrFrames s t := by
  rcases whenIdle_next he with ⟨-, rfl⟩ | ⟨-, rfl⟩
  exacts [.inl rfl, hf]

/-- A refusal writes the result only (R290). -/
theorem endChecked (check : Option Byte) {ok : State → State} (h : KeepsTxOrFrames s (ok s)) :
    KeepsTxOrFrames s (endChecked check s ok) := by
  rcases endChecked_cases check s ok with ⟨k, -, e⟩ | ⟨-, e⟩ <;> rw [e]
  exacts [.inl rfl, h]

theorem buildRequestOp (a fc : Byte) (reg v1 : U16) (v2 : Value2) :
    KeepsTxOrFrames s (buildRequestOp a fc reg v1 v2 s) := by
  rcases buildRequestOp_cases a fc reg v1 v2 s with ⟨k, -, e⟩ | ⟨-, hlen, e⟩ <;> rw [e]
  exacts [.inl rfl, of_store rfl (hlen.trans_lt (by decide))]

theorem arbiterOp (o : Operands) (d c : Nat) : KeepsTxOrFrames s (arbiterOp o d c s) := by
  rcases arbiterOp_cases o d c s with ⟨k, -, e⟩ | ⟨-, -, hlen, e⟩ <;> rw [e]
  exacts [.inl rfl, of_store rfl (hlen.trans_lt (by decide))]

theorem sendMagic (reg : U16) (s0 : State) : KeepsTxOrFrames s (sendMagic reg s0) :=
  of_store rfl ((length_frame_latch_singleRegister ..).trans_lt (by decide))

theorem sendBlock (s0 : State) : KeepsTxOrFrames s (sendBlock s0) :=
  of_store rfl ((length_frame_blockOperands s0).trans_lt (by decide))

/-- Every instruction but `SOFT_RESET`, which clears `TXBUF` (R263). -/
theorem exec {i : Instr} (hreset : i ≠ .softReset) (he : exec i s = .next t) : KeepsTxOrFrames s t := by
  cases i with simp only [Machine.exec] at he
  | softReset => exact absurd rfl hreset
  | crcInit | crcByte | decCrcok => exact whenIdle he (.inl rfl)
  | regRead | bufRead => cases he; exact .inl rfl
  | buildRequest | reqReadCoils | reqReadDiscreteInputs | reqReadHoldingRegisters | reqReadInputRegisters
  | reqWriteSingleCoil | reqWriteSingleRegister | reqWriteMultipleCoils | reqWriteMultipleRegisters
  | reqExceptionClass => exact whenIdle he (buildRequestOp ..)
  | parseResponse | decFc | decErrbc | decRegs | decCoils => exact whenIdle he (endChecked _ (.inl rfl))
  | readHoldingRegisters | readCoils | writeSingleRegister | writeSingleCoil | writeMultipleRegisters
  | writeMultipleCoils => exact whenIdle he (arbiterOp ..)
  | fwStart => exact whenIdle he (endChecked _ (sendMagic ..))
  | cfgWrite number v => exact whenIdle he (by cases writeSetting s.cfg number v <;> exact .inl rfl)

end KeepsTxOrFrames

/-! ### The other moves -/

theorem afterTransmit_tx (s : State) : (afterTransmit s).tx = s.tx := by
  unfold afterTransmit; split <;> rfl

theorem afterExchange_tx (s : State) : (afterExchange s).tx = s.tx := by
  unfold afterExchange
  split
  · unfold afterInitialize; dsimp only; split <;> rfl
  · unfold afterBlock; split <;> rfl
  · unfold afterCommit; dsimp only; split <;> rfl
  all_goals rfl

theorem transportTakes_tx (k : Nat) (s : State) : (transportTakes k s).tx = s.tx := by
  unfold transportTakes; split <;> rfl

theorem transportGives_tx (bs : List Byte) (s : State) : (transportGives bs s).tx = s.tx := by
  unfold transportGives; split <;> rfl

theorem timeElapses_tx (ms : Nat) (s : State) : (timeElapses ms s).tx = s.tx := by
  unfold timeElapses; split <;> rfl

/-- Of the Core's moves, those that begin the exchange of a block or of Commit write `TXBUF` (R247, R254). -/
theorem KeepsTxOrFrames.coreMove {s t : State} (h : coreMove s = .next t) : KeepsTxOrFrames s t := by
  rcases coreMove_cases h with rfl | ⟨-, -, rfl⟩ | ⟨-, -, rfl⟩ | ⟨-, -, rfl⟩ | ⟨-, -, -, -, s1, -, rfl⟩ |
    ⟨-, -, -, -, rfl⟩ | ⟨-, -, -, rfl⟩
  · exact .inl rfl
  · exact .inl (afterTransmit_tx s)
  · exact .inl rfl
  · exact .inl (afterExchange_tx (endExchange s))
  · exact .sendBlock s1
  · exact .inl rfl
  · exact .sendMagic _ s

/-- What a step can do to `TXBUF`. -/
theorem step_tx {s t : State} (h : step s = .next t) : ResetNext s ∨ KeepsTxOrFrames s t := by
  rcases step_cases h with ⟨-, rfl⟩ | ⟨m, rest, hm, hmove⟩
  · exact .inr (.inl rfl)
  rcases hmove with ⟨p, i, rfl, hp, hi⟩ | ⟨p, op, -, -, hi⟩ | ⟨p, e, a, fc, reg, v1, v2, -, -, hi⟩ | ⟨rfl, -⟩ |
    ⟨-, hc⟩ | ⟨k, -, rfl⟩ | ⟨bs, -, rfl⟩ | ⟨ms, -, rfl⟩
  · by_cases hreset : i = .softReset
    · subst hreset
      exact .inl ⟨_, rest, hm, .inr ⟨p, rfl, hp⟩⟩
    · exact .inr (.exec (s := withMoves s rest) hreset hi)
  · exact .inr (.whenIdle (s := withMoves s rest) hi (.inl rfl))
  · exact .inr (.exec (s := withMoves s rest) (i := .buildRequest a fc reg v1 v2) nofun hi)
  · exact .inl ⟨_, rest, hm, .inl rfl⟩
  · exact .inr (.coreMove (s := withMoves s rest) hc)
  · exact .inr (.inl (transportTakes_tx k _))
  · exact .inr (.inl (transportGives_tx bs _))
  · exact .inr (.inl (timeElapses_tx ms _))

end Sys2Proof.Machine

open Sys2Proof Sys2Proof.Machine

/-- Settles O26: a step that is no reset and changes `TXBUF` leaves the frame of the operand registers there. -/
theorem framesAreFunctionsOfOperands : Obligations.FramesAreFunctionsOfOperands := fun _ _ h hne =>
  (step_tx h).imp_right (·.resolve_left hne)

end

section
/-!
SUPPORT. The Frame Codec's decoder (42_frame_decoder.md): what each of its commands does on an idle port. An accessor either
returns its value or is refused with cause 7, and the bytes it reads are below `RXLEN`, so the rest of `RXBUF` is never seen.
-/
namespace Sys2Proof.Machine

/-! ### Reading the received bytes (R8, R183, R184) -/

theorem RxFrame.getD_bytes (f : RxFrame) {i : Nat} (h : i < f.len.toNat) : f.bytes.getD i 0 = f.buf.getD i 0 := by
  rw [RxFrame.bytes, List.getD_eq_getElem?_getD, List.getElem?_take_of_lt h, List.getD_eq_getElem?_getD]

theorem RxFrame.slice_bytes (f : RxFrame) {o n : Nat} (h : o + n ≤ f.len.toNat) :
    (f.bytes.drop o).take n = (f.buf.drop o).take n := by
  rw [RxFrame.bytes, List.drop_take, List.take_take, Nat.min_eq_left (by omega)]

theorem RxFrame.u16be_bytes (f : RxFrame) {i : Nat} (h : i + 1 < f.len.toNat) :
    u16be f.bytes i = f.buf.getD i 0 ++ f.buf.getD (i + 1) 0 := by
  rw [u16be, f.getD_bytes (Nat.lt_of_succ_lt h), f.getD_bytes h, wordOf]

@[simp] theorem length_wordsAt (r : List Byte) (o count : Nat) : (wordsAt r o count).length = count := by
  simp [wordsAt]

theorem getD_wordsAt (r : List Byte) (o : Nat) {count k : Nat} (h : k < count) :
    (wordsAt r o count).getD k 0 = u16be r (o + 2 * k) := by
  rw [List.getD_eq_getElem _ _ (by simpa using h)]
  simp [wordsAt]

/-- R185: the comparison of `crc_ok` is with the last two bytes, low byte first. -/
theorem crcOk_iff (r : List Byte) : crcOk r = true ↔ 2 ≤ r.length ∧
    crc16 (r.take (r.length - 2)) = r.getD (r.length - 1) 0 ++ r.getD (r.length - 2) 0 := by
  by_cases h : r.length < 2
  · simp [crcOk, h]
  · have hlast : r.length - 2 + 1 = r.length - 1 := by omega
    rw [crcOk, if_neg h, beq_iff_eq, u16le, hlast, wordOf]
    exact (and_iff_right (Nat.not_lt.mp h)).symm

/-! ### The ends of a decoder command (R180, R186) -/

theorem endOk_rx_of_idle {s : State} (hb : s.busy = false) (f : RxFrame) (r : Ret) :
    endOk r { s with rx := f } = { s with rx := f, result := { status := .ok, errInfo := 0, ret := r } } := by
  simp only [endOk, endCommand, hb]

section
variable {s : State} {i : Instr} {r : Ret} {inside : Prop} [Decidable inside]

theorem returns_of_endOk (hb : s.busy = false) (he : exec i s = .next (endOk r s)) : Returns s i r :=
  he.trans (congrArg Host.Outcome.next (endOk_rx_of_idle hb s.rx r))

theorem refuses_of_raise {k : Byte} (hb : s.busy = false) (he : exec i s = .next (raise k s)) : Refuses s i s.opnd k :=
  he.trans (congrArg Host.Outcome.next (raise_of_idle hb s.opnd k))

theorem returns_of_accessor (hb : s.busy = false) (he : exec i s = .next (accessor inside r s)) (hin : inside) :
    Returns s i r := by
  rw [accessor, if_pos hin] at he
  exact returns_of_endOk hb he

theorem refuses_of_accessor (hb : s.busy = false) (he : exec i s = .next (accessor inside r s)) (hout : ¬ inside) :
    Refuses s i s.opnd 7 := by
  rw [accessor, if_neg hout] at he
  exact refuses_of_raise hb he

end

/-! ### The commands on an idle port (R180 to R185) -/

section
variable {s : State} (hb : s.busy = false)
include hb

theorem exec_parseResponse {bytes : List Byte} (h : bytes.length ≤ 260) :
    exec (.parseResponse bytes) s = .next { s with
      rx := bytesIn s bytes 0
      result := { status := .ok, errInfo := 0, ret := .word (BitVec.ofNat 16 bytes.length) } } := by
  rw [exec, execParseResponse, whenIdle_idle hb, Config.rxMax, if_neg (Nat.not_lt.mpr h), endChecked, endOk_rx_of_idle hb,
    store_received, bytesIn]

theorem exec_parseResponse_of_long {bytes : List Byte} (h : 260 < bytes.length) :
    exec (.parseResponse bytes) s = .next (raise 11 s) := by
  rw [exec, execParseResponse, whenIdle_idle hb, Config.rxMax, if_pos h, endChecked]

theorem exec_decFc : exec .decFc s = .next (accessor (2 ≤ s.rx.len.toNat) (.byte (s.rx.bytes.getD 1 0)) s) := by
  rw [exec, execDecFc, whenIdle_idle hb]

theorem exec_decErrbc : exec .decErrbc s = .next (accessor (3 ≤ s.rx.len.toNat) (.byte (s.rx.bytes.getD 2 0)) s) := by
  rw [exec, execDecErrbc, whenIdle_idle hb]

theorem exec_decRegs (start count : U16) :
    exec (.decRegs start count) s = .next
      (accessor (2 ≤ s.rx.len.toNat ∧ 3 + 2 * start.toNat + 2 * count.toNat + 2 ≤ s.rx.len.toNat)
        (.words (wordsAt s.rx.bytes (3 + 2 * start.toNat) count.toNat)) s) := by
  rw [exec, execDecRegs, whenIdle_idle hb]

theorem exec_decCoils (count : U16) :
    exec (.decCoils count) s = .next
      (accessor (2 ≤ s.rx.len.toNat ∧ 3 + count.toNat + 2 ≤ s.rx.len.toNat)
        (.bytes ((s.rx.bytes.drop 3).take count.toNat)) s) := by
  rw [exec, execDecCoils, whenIdle_idle hb]

theorem returns_decCrcok : Returns s .decCrcok (.bool (crcOk s.rx.bytes)) :=
  returns_of_endOk hb (by rw [exec, execDecCrcok, whenIdle_idle hb])

end

end Sys2Proof.Machine

open Sys2Proof Sys2Proof.Machine

/-- Settles O29: every word the command returns lies below the checksum, where the received bytes are those of `RXBUF`. -/
theorem registerAccessor : Obligations.RegisterAccessor := by
  intro s start count
  refine ⟨rfl, fun hb hlen hin => ⟨_, length_wordsAt .., fun k hk => ?_,
    returns_of_accessor hb (exec_decRegs hb start count) ⟨hlen, by omega⟩⟩,
    fun hb hout => refuses_of_accessor hb (exec_decRegs hb start count) (by omega)⟩
  rw [getD_wordsAt _ _ hk, s.rx.u16be_bytes (by omega)]

/-- Settles O31: the command returns `crc_ok` of the received bytes, which the invariant says `RX_CRC_OK` is. -/
theorem checksumAccessor : Obligations.ChecksumAccessor := by
  refine ⟨rfl, crcOk_iff, fun s hb => returns_decCrcok hb, fun s hinv hb => ?_⟩
  rw [hinv.flags.crcOk]
  exact returns_decCrcok hb

/-- Settles O27: the one check is of the length, and the flags are those of the given bytes. -/
theorem parseResponseCommand : Obligations.ParseResponseCommand := fun _ _ =>
  ⟨rfl, fun hb hlen => exec_parseResponse hb hlen,
    fun hb hlong => refuses_of_raise hb (exec_parseResponse_of_long hb hlong)⟩

/-- Settles O28: the byte at offset 1 or 2 is read when `RXLEN` reaches it. -/
theorem headerAccessors : Obligations.HeaderAccessors := by
  refine ⟨rfl, rfl, fun s hb => ⟨fun h => ?_, fun h => ?_, fun h => ?_, fun h => ?_⟩⟩
  · rw [← s.rx.getD_bytes h]
    exact returns_of_accessor hb (exec_decFc hb) h
  · exact refuses_of_accessor hb (exec_decFc hb) (Nat.not_le.mpr h)
  · rw [← s.rx.getD_bytes h]
    exact returns_of_accessor hb (exec_decErrbc hb) h
  · exact refuses_of_accessor hb (exec_decErrbc hb) (Nat.not_le.mpr h)

/-- Settles O30: the bytes at offset 3 lie below the checksum, where the received bytes are those of `RXBUF`. -/
theorem coilAccessor : Obligations.CoilAccessor := by
  intro s count
  refine ⟨rfl, fun hb hlen hin => ?_, fun hb hout => refuses_of_accessor hb (exec_decCoils hb count) (by omega)⟩
  rw [← s.rx.slice_bytes (by omega)]
  exact returns_of_accessor hb (exec_decCoils hb count) ⟨hlen, by omega⟩

end

section
/-!
SUPPORT. The Arbiter's exchange as a run (43_rtu_arbiter.md R202 to R207): one rule for each move of a schedule, the whole exchange
assembled from them, and what the six commands have in common: their checks, their refusals, and the exchange they begin.
-/
namespace Sys2Proof.Machine

/-! ### The moves of the Core (R202 to R206) -/

theorem coreMove_of_taken {s : State} (hp : s.phase = .tx) (h : s.tx.bytes.length ≤ s.hidden.txPos) :
    coreMove s = .next (afterTransmit s) := by
  simp only [coreMove, hp, if_pos h]

theorem coreMove_of_windowEnds {s : State} (hp : s.phase = .rxWait) (h : windowEnds s = true) :
    coreMove s = .next (closeWindow s.hidden.rxAcc s.rx.exp s) := by
  simp only [coreMove, hp, if_pos h]

theorem coreMove_of_gapServed {s : State} (hp : s.phase = .gap) (h : s.hidden.gapLeft = 0) :
    coreMove s = .next (afterExchange (endExchange s)) := by
  simp only [coreMove, hp, if_pos h]

/-- The window may close when `n` bytes are collected or its countdown has run out (R205). -/
theorem windowEnds_iff (s : State) :
    windowEnds s = true ↔ s.rx.exp.toNat ≤ s.hidden.rxAcc.length ∨ s.hidden.windowLeft = 0 := by
  simp [windowEnds]

theorem afterTransmit_of_broadcast {s : State} (h : s.opnd.devAddr = 0) : afterTransmit s = closeWindow [] 0 s := if_pos h

theorem afterTransmit_of_addressed {s : State} (h : s.opnd.devAddr ≠ 0) : afterTransmit s = openWindow s := if_neg h

/-- Outside a session an exchange ends with the raw response bytes (R207). -/
theorem afterExchange_of_command {s : State} (h : inSession s.session.fwState = false) :
    afterExchange s = finish (.bytes s.rx.bytes) s := by
  unfold afterExchange
  cases hf : s.session.fwState with
  | idle | done | failed => rfl
  | initializing | transferring | committing => rw [hf] at h; cases h

/-! ### The moves of the Transport and of Time -/

theorem transportGives_of_rxWait {s : State} (h : s.phase = .rxWait) (bs : List Byte) :
    transportGives bs s = { s with
      hidden := { s.hidden with rxAcc := s.hidden.rxAcc ++ bs.take (s.rx.exp.toNat - s.hidden.rxAcc.length) } } := by
  simp only [transportGives, h]

theorem timeElapses_of_rxWait {s : State} (h : s.phase = .rxWait) (ms : Nat) :
    timeElapses ms s = { s with hidden := { s.hidden with windowLeft := s.hidden.windowLeft - ms } } := by
  simp only [timeElapses, h]

theorem timeElapses_of_gap {s : State} (h : s.phase = .gap) (ms : Nat) :
    timeElapses ms s = { s with hidden := { s.hidden with gapLeft := s.hidden.gapLeft - ms } } := by
  simp only [timeElapses, h]

/-! ### The schedule has no part in the operations -/

theorem transportTakes_withMoves (k : Nat) (s : State) (ms : List Move) :
    transportTakes k (withMoves s ms) = withMoves (transportTakes k s) ms := by
  cases hp : s.phase <;> simp only [transportTakes, withMoves, hp]

theorem transportGives_withMoves (bs : List Byte) (s : State) (ms : List Move) :
    transportGives bs (withMoves s ms) = withMoves (transportGives bs s) ms := by
  cases hp : s.phase <;> simp only [transportGives, withMoves, hp]

theorem timeElapses_withMoves (k : Nat) (s : State) (ms : List Move) :
    timeElapses k (withMoves s ms) = withMoves (timeElapses k s) ms := by
  cases hp : s.phase <;> simp only [timeElapses, withMoves, hp]

theorem afterTransmit_withMoves (s : State) (ms : List Move) :
    afterTransmit (withMoves s ms) = withMoves (afterTransmit s) ms := by
  by_cases h : s.opnd.devAddr = 0
  · rw [afterTransmit_of_broadcast h, afterTransmit_of_broadcast (s := withMoves s ms) h]
    rfl
  · rw [afterTransmit_of_addressed h, afterTransmit_of_addressed (s := withMoves s ms) h]
    rfl

theorem afterExchange_withMoves (s : State) (ms : List Move) :
    afterExchange (withMoves s ms) = withMoves (afterExchange s) ms := by
  cases hf : s.session.fwState <;> simp only [afterExchange, withMoves, hf]
  case initializing => unfold afterInitialize; dsimp only; split <;> rfl
  case transferring => unfold afterBlock; dsimp only; split <;> rfl
  case committing => unfold afterCommit; dsimp only; split <;> rfl
  all_goals rfl

/-- The state after the Transport took the whole request, of which it had no byte before (R203). -/
def requestTaken (s : State) : State := { s with
  hidden := { s.hidden with txPos := s.tx.bytes.length }
  env := { s.env with wire := s.env.wire ++ s.tx.bytes } }

/-- The state of an open window that collected `r` and whose countdown has run out (R205). -/
def responseCollected (r : List Byte) (s : State) : State := { s with
  hidden := { s.hidden with rxAcc := r, windowLeft := 0 } }

/-! ### Runs, move by move -/

theorem driven_move {s u : State} {m : Move} {ms : List Move} (h : step (withMoves s (m :: ms)) = .next (withMoves u ms)) :
    driven s (m :: ms) = driven u ms := by
  rw [driven_cons h rfl]
  rfl

section
variable (s : State) (ms : List Move)

theorem driven_takes (k : Nat) : driven s (.takes k :: ms) = driven (transportTakes k s) ms :=
  driven_move (by rw [step_of_takes rfl, ← transportTakes_withMoves]; rfl)

theorem driven_gives (bs : List Byte) : driven s (.gives bs :: ms) = driven (transportGives bs s) ms :=
  driven_move (by rw [step_of_gives rfl, ← transportGives_withMoves]; rfl)

theorem driven_elapse (k : Nat) : driven s (.elapse k :: ms) = driven (timeElapses k s) ms :=
  driven_move (by rw [step_of_elapse rfl, ← timeElapses_withMoves]; rfl)

variable {s}

theorem driven_core_of_taken (hp : s.phase = .tx) (h : s.tx.bytes.length ≤ s.hidden.txPos) :
    driven s (.core :: ms) = driven (afterTransmit s) ms :=
  driven_move (by rw [step_of_core rfl, ← afterTransmit_withMoves]; exact coreMove_of_taken hp h)

theorem driven_core_of_windowEnds (hp : s.phase = .rxWait) (h : windowEnds s = true) :
    driven s (.core :: ms) = driven (closeWindow s.hidden.rxAcc s.rx.exp s) ms :=
  driven_move (by rw [step_of_core rfl]; exact coreMove_of_windowEnds (s := withMoves s ms) hp h)

theorem driven_core_of_gapServed (hp : s.phase = .gap) (h : s.hidden.gapLeft = 0) :
    driven s (.core :: ms) = driven (afterExchange (endExchange s)) ms :=
  driven_move (by rw [step_of_core rfl, ← afterExchange_withMoves]; exact coreMove_of_gapServed hp h)

/-! ### The parts of an exchange -/

/-- The Transport takes the whole request, and the Core goes on (R202, R203). -/
theorem driven_transmit (hp : s.phase = .tx) (h0 : s.hidden.txPos = 0) :
    driven s (.takes s.tx.len.toNat :: .core :: ms) = driven (afterTransmit (requestTaken s)) ms := by
  have hall : (s.tx.bytes.drop 0).take s.tx.len.toNat = s.tx.bytes := List.take_of_length_le s.tx.length_bytes_le
  rw [driven_takes, transportTakes_of_tx hp, h0, hall, Nat.zero_add]
  exact driven_core_of_taken ms hp le_rfl

/-- The open window collects `r`, and closes when its countdown has run out (R205). -/
theorem driven_window {r : List Byte} (hp : s.phase = .rxWait) (hacc : s.hidden.rxAcc = []) (hr : r.length ≤ s.rx.exp.toNat) :
    driven s (.gives r :: .elapse s.hidden.windowLeft :: .core :: ms) =
      driven (closeWindow r s.rx.exp (responseCollected r s)) ms := by
  have hall : s.hidden.rxAcc ++ r.take (s.rx.exp.toNat - s.hidden.rxAcc.length) = r := by
    rw [hacc, List.nil_append]
    exact List.take_of_length_le hr
  rw [driven_gives, transportGives_of_rxWait hp, hall, driven_elapse, timeElapses_of_rxWait (by exact hp)]
  simp only [Nat.sub_self]
  exact driven_core_of_windowEnds ms hp ((windowEnds_iff _).mpr (.inr rfl))

/-- The inter-frame delay is served, and the exchange ends (R206). -/
theorem driven_gap (hp : s.phase = .gap) :
    driven s (.elapse s.hidden.gapLeft :: .core :: ms) =
      driven (afterExchange (endExchange { s with hidden := { s.hidden with gapLeft := 0 } })) ms := by
  rw [driven_elapse, timeElapses_of_gap hp]
  simp only [Nat.sub_self]
  exact driven_core_of_gapServed ms hp rfl

end

/-- A command's exchange whose window closed with `r` ends with the classification of `r`, and returns it (R202, R207). -/
theorem driven_end_of_command {s : State} {r : List Byte} (e : U16) (hf : inSession s.session.fwState = false)
    (hr : r.length < 65536) :
    driven (closeWindow r e s) [.elapse s.cfg.tIfgMs.toNat, .core] = .next { s with
      busy := false
      phase := .idle
      rx := bytesIn s r e
      result := {
        status := (classify s.opnd.devAddr e.toNat r).1
        errInfo := (classify s.opnd.devAddr e.toNat r).2
        ret := .bytes r }
      hidden := { s.hidden with gapLeft := 0 }
      env := { s.env with moves := [] } } := by
  have hbytes : (bytesIn s r e).bytes = r := by rw [← store_received, RxFrame.store_bytes _ _ _ hr]
  refine (driven_gap (s := closeWindow r e s) [] rfl).trans ?_
  rw [afterExchange_of_command (by exact hf), driven_nil]
  simp only [endExchange, closeWindow, finish, withMoves, store_received, hbytes]
  rfl

/-! ### The whole exchange -/

section
variable {t : State}

/-- An addressed request that just began ends with its answer, classified (R202, R205, R207). -/
theorem answered_of_sending {n : Nat} {r : List Byte} (hp : t.phase = .tx) (h0 : t.hidden.txPos = 0)
    (ha : t.opnd.devAddr ≠ 0) (hf : inSession t.session.fwState = false)
    (hn : expectedLength t.opnd.func t.opnd.value1 = n) (hmax : n < 65536) (hr : r.length ≤ n) : Answered t n r := by
  have hexp : (openWindow (requestTaken t)).rx.exp.toNat = n :=
    (congrArg (fun k => (BitVec.ofNat 16 k).toNat) hn).trans (Nat.mod_eq_of_lt hmax)
  subst hn
  refine ⟨{ txPos := t.tx.bytes.length, rxAcc := r, windowLeft := 0, gapLeft := 0 }, ?_⟩
  rw [answeredBy, driven_transmit _ hp h0, afterTransmit_of_addressed (by exact ha)]
  refine (driven_window (s := openWindow (requestTaken t)) _ rfl rfl (hr.trans_eq hexp.symm)).trans ?_
  refine (driven_end_of_command (s := responseCollected r (openWindow (requestTaken t))) _ hf (hr.trans_lt hmax)).trans ?_
  rw [hexp]
  simp only [openWindow, requestTaken, responseCollected, bytesIn]

/-- A broadcast that just began ends without an answer (R204, R282). -/
theorem unanswered_of_sending (hp : t.phase = .tx) (h0 : t.hidden.txPos = 0) (ha : t.opnd.devAddr = 0)
    (hf : inSession t.session.fwState = false) : Unanswered t := by
  refine ⟨{ t.hidden with txPos := t.tx.bytes.length, gapLeft := 0 }, ?_⟩
  rw [broadcastMoves, driven_transmit _ hp h0, afterTransmit_of_broadcast (by exact ha)]
  refine (driven_end_of_command (s := requestTaken t) 0 hf (by decide)).trans ?_
  rw [show classify (requestTaken t).opnd.devAddr _ _ = (.noResponse, 0) from if_pos ha]
  rfl

end

/-! ### What the six commands have in common (R208, R216) -/

theorem shapeCheck_some {c : FuncClass} {v1 : U16} {d n : Nat} {k : Byte} (h : shapeCheck c v1 d n = some k) :
    k = 3 ∨ k = 4 := by
  cases c with
  | readCount | singleCoil | singleRegister => cases h
  | multipleCoils | multipleRegisters | exceptionClass =>
    simp only [shapeCheck] at h
    repeat' split at h
    all_goals cases h
    all_goals decide

theorem sizeCheck_of_le {fc : Byte} {v1 : U16} (h : expectedLength fc v1 ≤ 260) : sizeCheck fc v1 = none :=
  if_neg (Nat.not_lt.mpr h)

theorem sizeCheck_of_lt {fc : Byte} {v1 : U16} (h : 260 < expectedLength fc v1) : sizeCheck fc v1 = some 6 := if_pos h

/-- The causes an Arbiter command can be refused for: its function code has a shape, so cause 5 is none of them. -/
theorem arbiterCause_mem {o : Operands} {d n : Nat} {k : Byte} {c : FuncClass} (hc : funcClass o.func = some c)
    (h : (requestCheck o d n).or (sizeCheck o.func o.value1) = some k) : k ∈ [(2 : Byte), 3, 4, 6] := by
  rcases Option.or_eq_some_iff.mp h with hr | ⟨-, hz⟩
  · by_cases ha : 248 ≤ o.devAddr.toNat
    · rw [requestCheck_of_address ha] at hr
      cases hr
      decide
    · rw [requestCheck_of_shape (by omega) hc] at hr
      rcases shapeCheck_some hr with rfl | rfl <;> decide
  · unfold sizeCheck at hz
    split at hz <;> cases hz
    decide

section
variable {s : State} {i : Instr} {a fc : Byte} {reg v1 : U16} {v2 : Value2} {o : Operands} {c : FuncClass} {d n : Nat}

/-- A command given when idle begins its exchange, or is refused and changes the operand registers and the result only
(R216). -/
theorem begins_or_refuses {t : State} (hb : s.busy = false) (hc : funcClass fc = some c)
    (hi : exec i s =
      whenIdle s fun s => .next (arbiterOp ((s.opnd.latch a fc reg v1).latchValue2 fc v2) d n s))
    (h : exec i s = .next t) :
    (t.busy = true ∧ t.phase = .tx) ∨
    ∃ k ∈ [(2 : Byte), 3, 4, 6], t = { s with
      opnd := t.opnd
      result := { status := .protocolViolation, errInfo := k, ret := .none } } := by
  rw [hi, whenIdle_idle hb] at h
  cases h
  obtain ⟨-, hfunc, -⟩ := (s.opnd.latch a fc reg v1).latchValue2_frame fc v2
  rcases arbiterOp_cases ((s.opnd.latch a fc reg v1).latchValue2 fc v2) d n s with ⟨k, hk, e⟩ | ⟨-, -, -, e⟩ <;> rw [e]
  · exact .inr ⟨k, arbiterCause_mem (by rw [hfunc]; exact hc) hk, raise_of_idle hb _ k⟩
  · exact .inl ⟨rfl, rfl⟩

variable (hb : s.busy = false) (ha : a.toNat ≤ 247) (hc : funcClass fc = some c)
  (ho : (s.opnd.latch a fc reg v1).latchValue2 fc v2 = o)
  (hi : exec i s = whenIdle s fun s => .next (arbiterOp ((s.opnd.latch a fc reg v1).latchValue2 fc v2) d n s))
include hb ha hc ho hi

/-- With a legal address, a command is refused with the cause of its shape's checks. -/
theorem refuses_shape_of_arbiterOp {k : Byte} (hk : shapeCheck c v1 d n = some k) : Refuses s i o k :=
  refuses_of_arbiterOp hb ho hi (by rw [← ho, requestCheck_latched _ ha hc, hk])

/-- The size of the response is checked last: cause 6 (R208, R291). -/
theorem refuses_size_of_arbiterOp (hk : shapeCheck c v1 d n = none) (hsize : 260 < expectedLength fc v1) :
    Refuses s i o 6 := by
  obtain ⟨-, hfunc, -, hvalue⟩ := (s.opnd.latch a fc reg v1).latchValue2_frame fc v2
  have hcause : sizeCheck ((s.opnd.latch a fc reg v1).latchValue2 fc v2).func
      ((s.opnd.latch a fc reg v1).latchValue2 fc v2).value1 = some 6 := by
    rw [hfunc, hvalue]
    exact sizeCheck_of_lt hsize
  rw [Refuses, hi, whenIdle_idle hb, arbiterOp, requestCheck_latched _ ha hc, hk, hcause, ho, ← raise_of_idle hb]
  rfl

/-- A command that passes its checks begins the exchange of its frame, which then runs to its end (R202). -/
theorem exchanges_of_arbiterOp {body : List Byte} (hf : inSession s.session.fwState = false)
    (hk : shapeCheck c v1 d n = none) (hsize : expectedLength fc v1 ≤ 260) (hbody : o.body = body) :
    Exchanges s i o body (expectedLength fc v1) := by
  obtain ⟨-, hfunc, -, hvalue⟩ := (s.opnd.latch a fc reg v1).latchValue2_frame fc v2
  have hlength : expectedLength o.func o.value1 = expectedLength fc v1 := by
    rw [← ho, hfunc, hvalue]
    rfl
  have hcheck : requestCheck o d n = none := by rw [← ho, requestCheck_latched _ ha hc, hk]
  have hfits : body.length + 2 ≤ 264 := by simpa [Operands.frame, hbody] using frame_fits hcheck
  refine ⟨?_, frameIn_bytes s body (by omega),
    fun hdev r hr => answered_of_sending rfl rfl hdev hf hlength (by omega) hr,
    fun hdev => unanswered_of_sending rfl rfl hdev hf⟩
  rw [hi, whenIdle_idle hb, ho, arbiterOp, hcheck, sizeCheck_of_le (hlength.trans_le hsize)]
  simp only [Option.or, endChecked, sendRequest, beginExchange, buildFrame, Operands.frame, hbody, store_withCrc]
  rfl

end

/-! ### The reads and the single writes (R210 to R213) -/

section
variable {s : State} {i : Instr} {a fc : Byte} {reg v1 : U16} {c : FuncClass}

/-- The body of a request whose payload is made from `VALUE1` alone (R95). -/
theorem body_latch_of_payload (o : Operands) {pl : List Byte} (hc : funcClass fc = some c)
    (hpl : ∀ data coils, payload c v1 data coils = pl) : (o.latch a fc reg v1).body = [a, fc] ++ be16 reg ++ pl := by
  rw [← hpl (o.wData.take (2 * v1.toNat)) (o.wBits.take v1.toNat)]
  simp only [Operands.body, Operands.latch, requestBody, hc]

/-- A command without an operand of variable length is refused for its address or for the size of its response only. -/
theorem command_valueOnly {pl : List Byte} (hb : s.busy = false) (hf : inSession s.session.fwState = false)
    (hc : funcClass fc = some c) (hcheck : shapeCheck c v1 0 0 = none) (hpl : ∀ data coils, payload c v1 data coils = pl)
    (hi : exec i s = whenIdle s fun s => .next (arbiterOp (s.opnd.latch a fc reg v1) 0 0 s)) :
    (248 ≤ a.toNat → Refuses s i (s.opnd.latch a fc reg v1) 2) ∧
    (a.toNat ≤ 247 →
      (expectedLength fc v1 ≤ 260 →
        Exchanges s i (s.opnd.latch a fc reg v1) ([a, fc] ++ be16 reg ++ pl) (expectedLength fc v1)) ∧
      (260 < expectedLength fc v1 → Refuses s i (s.opnd.latch a fc reg v1) 6)) :=
  ⟨fun ha => refuses_of_arbiterOp (v2 := .absent) hb rfl hi (requestCheck_of_address ha 0 0),
    fun ha => ⟨fun hsize => exchanges_of_arbiterOp (v2 := .absent) hb ha hc rfl hi hf hcheck hsize
        (body_latch_of_payload _ hc hpl),
      fun hsize => refuses_size_of_arbiterOp (v2 := .absent) hb ha hc rfl hi hcheck hsize⟩⟩

end

/-! ### The body of Write Multiple Coils (R97, R157) -/

/-- Coils as many as the count asks for are the coils of the request's body. -/
theorem body_of_coilStates (o : Operands) (a : Byte) (reg : U16) {v1 : U16} {coils : List Bool} (hfit : v1.toNat ≤ 2039)
    (hlen : coils.length = v1.toNat) :
    ((o.latch a 0x0F reg v1).latchValue2 0x0F (.coils coils)).body =
      [a, 0x0F] ++ be16 reg ++ be16 v1 ++ [BitVec.ofNat 8 (v1.toNat / 8 + 1)] ++ packCoils (coilBytes v1) coils := by
  have hlatch : (o.latch a 0x0F reg v1).latchValue2 0x0F (.coils coils) = (o.latch a 0x0F reg v1).latchCoils coils := rfl
  rw [hlatch, Operands.latchCoils_of_le _ (by omega), Operands.body_of_coils rfl]
  have htake : (coils ++ o.wBits.drop coils.length).take v1.toNat = coils := by rw [← hlen, List.take_left]
  exact congrArg (fun bits => _ ++ packCoils (coilBytes v1) bits) htake

end Sys2Proof.Machine

open Sys2Proof Sys2Proof.Machine

/-- Settles O32: a count has no check of its own but for the size of the response it asks for. -/
theorem readCommands : Obligations.ReadCommands := by
  intro s a reg count hb hf o registers coils
  have reads {fc : Byte} {i : Instr} (hc : funcClass fc = some .readCount)
      (hi : exec i s = whenIdle s fun s => .next (arbiterOp (s.opnd.latch a fc reg count) 0 0 s)) :=
    command_valueOnly hb hf hc rfl (fun _ _ => rfl) hi
  obtain ⟨hrefused, hlegal⟩ := reads (i := registers) rfl rfl
  obtain ⟨hrefused', hlegal'⟩ := reads (i := coils) rfl rfl
  exact ⟨rfl, rfl, fun ha => ⟨hrefused ha, hrefused' ha⟩,
    fun ha => ⟨(hlegal ha).1, (hlegal ha).2, (hlegal' ha).1, (hlegal' ha).2⟩⟩

/-- Settles O33: every value is legal, and the response is 8 bytes. -/
theorem singleWriteCommands : Obligations.SingleWriteCommands := by
  intro s a reg value st hb hf register coil o1 o2
  have hsize : 8 ≤ 260 := by decide
  obtain ⟨hrefused, hlegal⟩ := command_valueOnly (i := register) (c := .singleRegister) (a := a) (reg := reg)
    hb hf rfl rfl (fun _ _ => rfl) rfl
  obtain ⟨hrefused', hlegal'⟩ := command_valueOnly (i := coil) (c := .singleCoil) (a := a) (reg := reg)
    (pl := if st then [0xFF, 0x00] else [0x00, 0x00]) hb hf rfl rfl (fun _ _ => by cases st <;> rfl) rfl
  exact ⟨rfl, rfl, fun ha => ⟨hrefused ha, hrefused' ha⟩,
    fun ha => ⟨(hlegal ha).1 hsize, (hlegal' ha).1 hsize⟩⟩

/-- Settles O34: an operand of the length its count asks for is latched whole, and is the data of the frame. -/
theorem multipleWriteCommands : Obligations.MultipleWriteCommands := by
  intro s a reg count hb hf
  have hsize : 8 ≤ 260 := by decide
  refine ⟨fun data => ?_, fun coils => ?_⟩
  · intro i short o
    have ho : short.latchValue2 0x10 (.data data) = o := rfl
    have hi : exec i s = whenIdle s fun s => .next <|
        arbiterOp ((s.opnd.latch a 0x10 reg count).latchValue2 0x10 (.data data)) data.length 0 s := rfl
    refine ⟨rfl, fun ha => ?_, fun ha hbig => ?_, fun ha hfit hlen => ?_, fun ha hfit hlen => ?_⟩
    · exact refuses_of_arbiterOp hb ho hi (ho ▸ requestCheck_of_latched_address _ ha _ _)
    · exact refuses_shape_of_arbiterOp hb ha rfl ho hi (shapeCheck_registers_of_lt hbig _ _)
    · exact refuses_shape_of_arbiterOp hb ha rfl ho hi ((shapeCheck_registers hfit _ _).trans (if_neg hlen))
    · exact exchanges_of_arbiterOp hb ha rfl ho hi hf ((shapeCheck_registers hfit _ _).trans (if_pos hlen))
        hsize (ho ▸ body_of_data s.opnd a reg hfit hlen)
  · intro i short o
    have ho : short.latchValue2 0x0F (.coils coils) = o := rfl
    have hi : exec i s = whenIdle s fun s => .next <|
        arbiterOp ((s.opnd.latch a 0x0F reg count).latchValue2 0x0F (.coils coils)) 0 coils.length s := rfl
    refine ⟨rfl, fun ha => ?_, fun ha hbig => ?_, fun ha hfit hlen => ?_, fun ha hfit hlen => ?_⟩
    · exact refuses_of_arbiterOp hb ho hi (ho ▸ requestCheck_of_latched_address _ ha _ _)
    · exact refuses_shape_of_arbiterOp hb ha rfl ho hi (shapeCheck_coils_of_lt hbig _ _)
    · exact refuses_shape_of_arbiterOp hb ha rfl ho hi ((shapeCheck_coils hfit _ _).trans (if_neg hlen))
    · refine ⟨packCoils (coilBytes count) coils, length_packCoils _ _,
        fun j k hj hk => getLsbD_getD_packCoils _ (by simpa using hj) hk, ?_⟩
      exact exchanges_of_arbiterOp hb ha rfl ho hi hf ((shapeCheck_coils hfit _ _).trans (if_pos hlen))
        hsize (ho ▸ body_of_coilStates s.opnd a reg hfit hlen)

/-- Settles O35: every one of the six codes has a shape. -/
theorem refusedCommandTouchesNothing : Obligations.RefusedCommandTouchesNothing := by
  intro s t a reg v1 st data coils i hi hb he
  simp only [List.mem_cons, List.not_mem_nil, or_false] at hi
  rcases hi with rfl | rfl | rfl | rfl | rfl | rfl
  case inr.inr.inr.inr.inl => exact begins_or_refuses (fc := 0x10) (v2 := .data data) hb rfl rfl he
  case inr.inr.inr.inr.inr => exact begins_or_refuses (fc := 0x0F) (v2 := .coils coils) hb rfl rfl he
  all_goals exact begins_or_refuses (v2 := .absent) hb rfl rfl he

end

section
/-!
SUPPORT. `PHASE` over a step (43_rtu_arbiter.md R201), and the two countdowns (R205, R206): what can change `PHASE`, what can
happen while an exchange is in progress, and that both countdowns run in full along any schedule.
-/
namespace Sys2Proof.Machine

/-! ### `PHASE` over the operations -/

/-- From `s` to `t` `PHASE` stays, or a request begins to be sent. -/
def KeepsPhaseOrSends (s t : State) : Prop := t.phase = s.phase ∨ t.phase = .tx

namespace KeepsPhaseOrSends
variable {s t : State}

theorem whenIdle {f : State → State} (he : whenIdle s (fun s => .next (f s)) = .next t) (hf : KeepsPhaseOrSends s (f s)) :
    t.phase = s.phase ∨ (s.busy = false ∧ t.phase = .tx) := by
  rcases whenIdle_next he with ⟨-, rfl⟩ | ⟨hb, rfl⟩
  exacts [.inl rfl, hf.imp_right (⟨hb, ·⟩)]

/-- A refusal writes the result only (R290). -/
theorem endChecked (check : Option Byte) {ok : State → State} (h : KeepsPhaseOrSends s (ok s)) :
    KeepsPhaseOrSends s (endChecked check s ok) := by
  rcases endChecked_cases check s ok with ⟨k, -, e⟩ | ⟨-, e⟩ <;> rw [e]
  exacts [.inl rfl, h]

theorem buildRequestOp (a fc : Byte) (reg v1 : U16) (v2 : Value2) :
    KeepsPhaseOrSends s (buildRequestOp a fc reg v1 v2 s) := by
  rcases buildRequestOp_cases a fc reg v1 v2 s with ⟨k, -, e⟩ | ⟨-, -, e⟩ <;> rw [e] <;> exact .inl rfl

theorem arbiterOp (o : Operands) (d c : Nat) : KeepsPhaseOrSends s (arbiterOp o d c s) := by
  rcases arbiterOp_cases o d c s with ⟨k, -, e⟩ | ⟨-, -, -, e⟩ <;> rw [e]
  exacts [.inl rfl, .inr rfl]

/-- Every instruction but `SOFT_RESET`; only an idle port begins an exchange (R111). -/
theorem exec {i : Instr} (hreset : i ≠ .softReset) (he : exec i s = .next t) :
    t.phase = s.phase ∨ (s.busy = false ∧ t.phase = .tx) := by
  cases i with simp only [Machine.exec] at he
  | softReset => exact absurd rfl hreset
  | crcInit | crcByte | decCrcok => exact whenIdle he (.inl rfl)
  | regRead | bufRead => cases he; exact .inl rfl
  | buildRequest | reqReadCoils | reqReadDiscreteInputs | reqReadHoldingRegisters | reqReadInputRegisters
  | reqWriteSingleCoil | reqWriteSingleRegister | reqWriteMultipleCoils | reqWriteMultipleRegisters
  | reqExceptionClass => exact whenIdle he (buildRequestOp ..)
  | parseResponse | decFc | decErrbc | decRegs | decCoils => exact whenIdle he (endChecked _ (.inl rfl))
  | readHoldingRegisters | readCoils | writeSingleRegister | writeSingleCoil | writeMultipleRegisters
  | writeMultipleCoils => exact whenIdle he (arbiterOp ..)
  | fwStart => exact whenIdle he (endChecked _ (.inr rfl))
  | cfgWrite number v => exact whenIdle he (by cases writeSetting s.cfg number v <;> exact .inl rfl)

end KeepsPhaseOrSends

theorem exec_softReset_phase {s t : State} (he : exec .softReset s = .next t) : t.phase = s.phase ∨ t.phase = .idle := by
  rw [exec, execSoftReset] at he
  rcases whenIdle_next he with ⟨-, rfl⟩ | ⟨-, rfl⟩
  exacts [.inl rfl, .inr rfl]

theorem afterExchange_phase (s : State) : (afterExchange s).phase = s.phase := by
  unfold afterExchange
  split
  · unfold afterInitialize; dsimp only; split <;> rfl
  · unfold afterBlock; split <;> rfl
  · unfold afterCommit; dsimp only; split <;> rfl
  all_goals rfl

theorem transportTakes_phase (k : Nat) (s : State) : (transportTakes k s).phase = s.phase := by
  unfold transportTakes; split <;> rfl

theorem transportGives_phase (bs : List Byte) (s : State) : (transportGives bs s).phase = s.phase := by
  unfold transportGives; split <;> rfl

theorem timeElapses_phase (ms : Nat) (s : State) : (timeElapses ms s).phase = s.phase := by
  unfold timeElapses; split <;> rfl

/-! ### `PHASE` over a step -/

/-- The ways a step from `s` to `t` can change `PHASE` (R201, R202). -/
inductive PhaseChange (s t : State) : Prop
  | reset (hnext : ResetNext s) (ht : t.phase = .idle)
  /-- A command on an idle port, or the next exchange of a session. -/
  | begins (hs : s.busy = false ∨ s.phase = .idle) (ht : t.phase = .tx)
  | transmitted (rest : List Move) (hs : s.phase = .tx) (ht : t = afterTransmit (withMoves s rest))
  | windowCloses (rest : List Move) (hs : s.phase = .rxWait)
    (ht : t = closeWindow s.hidden.rxAcc s.rx.exp (withMoves s rest))
  | gapEnds (hs : s.phase = .gap) (ht : t.phase = .idle)

theorem coreMove_phase {s t : State} {rest : List Move} (h : coreMove (withMoves s rest) = .next t) :
    t.phase = s.phase ∨ PhaseChange s t := by
  rcases coreMove_cases h with rfl | ⟨hp, -, rfl⟩ | ⟨hp, -, rfl⟩ | ⟨hp, -, rfl⟩ | ⟨hp, -, -, -, s1, -, rfl⟩ |
    ⟨-, -, -, -, rfl⟩ | ⟨hp, -, -, rfl⟩
  · exact .inl rfl
  · exact .inr (.transmitted rest hp rfl)
  · exact .inr (.windowCloses rest hp rfl)
  · exact .inr (.gapEnds hp (afterExchange_phase _))
  · exact .inr (.begins (.inr hp) rfl)
  · exact .inl rfl
  · exact .inr (.begins (.inr hp) rfl)

theorem step_phase {s t : State} (h : step s = .next t) : t.phase = s.phase ∨ PhaseChange s t := by
  rcases step_cases h with ⟨-, rfl⟩ | ⟨m, rest, hm, hmove⟩
  · exact .inl rfl
  have command (he : t.phase = (withMoves s rest).phase ∨ ((withMoves s rest).busy = false ∧ t.phase = .tx)) :
      t.phase = s.phase ∨ PhaseChange s t := he.imp_right fun ⟨hb, ht⟩ => .begins (.inl hb) ht
  rcases hmove with ⟨p, i, rfl, hp, hi⟩ | ⟨p, op, -, -, hi⟩ | ⟨p, e, a, fc, reg, v1, v2, -, -, hi⟩ | ⟨rfl, rfl⟩ |
    ⟨-, hc⟩ | ⟨k, -, rfl⟩ | ⟨bs, -, rfl⟩ | ⟨ms, -, rfl⟩
  · by_cases hreset : i = .softReset
    · subst hreset
      exact (exec_softReset_phase hi).imp_right (.reset ⟨_, rest, hm, .inr ⟨p, rfl, hp⟩⟩)
    · exact command (KeepsPhaseOrSends.exec hreset hi)
  · exact command (KeepsPhaseOrSends.whenIdle hi (.inl rfl))
  · exact command (KeepsPhaseOrSends.exec (i := .buildRequest a fc reg v1 v2) nofun hi)
  · exact .inr (.reset ⟨_, rest, hm, .inl rfl⟩ rfl)
  · exact coreMove_phase hc
  · exact .inl (transportTakes_phase k _)
  · exact .inl (transportGives_phase bs _)
  · exact .inl (timeElapses_phase ms _)

/-! ### Moves that wait -/

theorem coreMove_of_windowOpen {s : State} (hp : s.phase = .rxWait) (h : ¬ windowEnds s = true) : coreMove s = .next s := by
  simp only [coreMove, hp, if_neg h]

theorem coreMove_of_gapRunning {s : State} (hp : s.phase = .gap) (h : s.hidden.gapLeft ≠ 0) : coreMove s = .next s := by
  simp only [coreMove, hp, if_neg h]

theorem transportTakes_of_ne_tx {s : State} {p : Phase} (hp : s.phase = p) (h : p ≠ .tx) (k : Nat) :
    transportTakes k s = s := by
  subst hp
  unfold transportTakes
  split
  case h_1 hp => exact absurd hp h
  all_goals rfl

theorem transportGives_of_ne_rxWait {s : State} {p : Phase} (hp : s.phase = p) (h : p ≠ .rxWait) (bs : List Byte) :
    transportGives bs s = s := by
  subst hp
  unfold transportGives
  split
  case h_1 hp => exact absurd hp h
  all_goals rfl

/-! ### Steps while an exchange is in progress -/

/-- While `BUSY` is 1 the Host's move writes the returned value at most (R111), and the other agents go on. -/
theorem step_of_busy {s t : State} {m : Move} {rest : List Move} (hb : s.busy = true) (hm : s.env.moves = m :: rest)
    (hr : m ≠ .resetInput) (h : step s = .next t) :
    (∃ p r, m = .host p ∧ t = returnOnly r (withMoves s rest)) ∨
    (m = .core ∧ coreMove (withMoves s rest) = .next t) ∨
    (∃ k, m = .takes k ∧ t = transportTakes k (withMoves s rest)) ∨
    (∃ bs, m = .gives bs ∧ t = transportGives bs (withMoves s rest)) ∨
    (∃ ms, m = .elapse ms ∧ t = timeElapses ms (withMoves s rest)) := by
  have command {i : Instr} (hi : exec i (withMoves s rest) = .next t) : ∃ r, t = returnOnly r (withMoves s rest) := by
    obtain ⟨hwait, hread⟩ := busyPortAcceptsOnlyReads i (withMoves s rest) hb
    cases hi' : isRead i with
    | false => exact ⟨s.result.ret, Host.Outcome.next.inj (hi.symm.trans (hwait hi'))⟩
    | true =>
      obtain ⟨r, he⟩ := hread hi'
      exact ⟨r, Host.Outcome.next.inj (hi.symm.trans he)⟩
  rcases step_cases h with ⟨hnil, -⟩ | ⟨m', rest', hm', hmove⟩
  · rw [hm] at hnil
    cases hnil
  obtain ⟨rfl, rfl⟩ := List.cons.inj (hm.symm.trans hm')
  rcases hmove with ⟨p, i, rfl, -, hi⟩ | ⟨p, op, rfl, -, hi⟩ | ⟨p, e, a, fc, reg, v1, v2, rfl, -, hi⟩ | ⟨rfl, -⟩ |
    hc | htakes | hgives | helapse
  · obtain ⟨r, ht⟩ := command hi
    exact .inl ⟨p, r, rfl, ht⟩
  · rw [illegalCommand, whenIdle_busy (s := withMoves s rest) hb] at hi
    exact .inl ⟨p, s.result.ret, rfl, (Host.Outcome.next.inj hi).symm⟩
  · obtain ⟨r, ht⟩ := command hi
    exact .inl ⟨p, r, rfl, ht⟩
  · exact absurd rfl hr
  · exact .inr (.inl hc)
  · exact .inr (.inr (.inl htakes))
  · exact .inr (.inr (.inr (.inl hgives)))
  · exact .inr (.inr (.inr (.inr helapse)))

/-- What every move of a schedule keeps, given that the move is taken off the schedule, holds when the run has ended. -/
theorem driven_invariant {P : State → Prop}
    (hstep : ∀ s t m rest, s.env.moves = m :: rest → P s → step s = .next t → t.env.moves = rest ∧ P t)
    {s t : State} {ms : List Move} (h0 : P (withMoves s ms)) (h : driven s ms = .next t) : t.env.moves = [] ∧ P t := by
  induction ms generalizing s with
  | nil => cases h; exact ⟨rfl, h0⟩
  | cons m ms ih =>
    obtain ⟨u, hu, -⟩ := driven_cons_inv h
    obtain ⟨hmoves, hP⟩ := hstep _ _ _ _ rfl h0 hu
    rw [driven_cons hu hmoves] at h
    refine ih ?_ h
    rw [← hmoves]
    exact hP

/-! ### The response window (R205) -/

/-- The window is open, and the moves to come neither let its countdown run out nor bring all `n` bytes: `got` is all it
collects. -/
structure WindowOpen (got : List Byte) (s : State) : Prop where
  busy : s.busy = true
  phase : s.phase = .rxWait
  noReset : .resetInput ∉ s.env.moves
  time : elapsedMs s.env.moves < s.hidden.windowLeft
  bytes : s.hidden.rxAcc ++ delivered s.env.moves = got
  room : got.length < s.rx.exp.toNat

theorem WindowOpen.step {got : List Byte} {s t : State} {m : Move} {rest : List Move} (hm : s.env.moves = m :: rest)
    (h : WindowOpen got s) (he : step s = .next t) : t.env.moves = rest ∧ WindowOpen got t := by
  obtain ⟨hb, hp, hreset, htime, hbytes, hroom⟩ := h
  rw [hm] at hreset htime hbytes
  obtain ⟨hne, hrest⟩ : .resetInput ≠ m ∧ .resetInput ∉ rest := not_or.mp (mt List.mem_cons.mpr hreset)
  rcases step_of_busy hb hm hne.symm he with ⟨p, r, rfl, rfl⟩ | ⟨rfl, hc⟩ | ⟨k, rfl, rfl⟩ | ⟨bs, rfl, rfl⟩ | ⟨ms, rfl, rfl⟩
  · exact ⟨rfl, hb, hp, hrest, htime, hbytes, hroom⟩
  · have hopen : ¬ windowEnds (withMoves s rest) = true := by
      have hlen := congrArg List.length hbytes
      rw [List.length_append] at hlen
      rw [windowEnds_iff]
      change ¬ (s.rx.exp.toNat ≤ s.hidden.rxAcc.length ∨ s.hidden.windowLeft = 0)
      omega
    rw [coreMove_of_windowOpen (s := withMoves s rest) hp hopen] at hc
    cases hc
    exact ⟨rfl, hb, hp, hrest, htime, hbytes, hroom⟩
  · rw [transportTakes_of_ne_tx (s := withMoves s rest) hp nofun]
    exact ⟨rfl, hb, hp, hrest, htime, hbytes, hroom⟩
  · have hfit : bs.take (s.rx.exp.toNat - s.hidden.rxAcc.length) = bs := by
      have hlen := congrArg List.length hbytes
      simp only [delivered, List.length_append] at hlen
      exact List.take_of_length_le (by omega)
    rw [transportGives_of_rxWait (s := withMoves s rest) hp]
    refine ⟨rfl, hb, hp, hrest, htime, ?_, hroom⟩
    rw [← hbytes, delivered, ← List.append_assoc]
    exact congrArg (fun b => s.hidden.rxAcc ++ b ++ delivered rest) hfit
  · rw [timeElapses_of_rxWait (s := withMoves s rest) hp]
    exact ⟨rfl, hb, hp, hrest, Nat.lt_sub_iff_add_lt'.mpr htime, hbytes, hroom⟩

/-! ### The inter-frame delay (R206) -/

/-- The inter-frame delay is running, and the moves to come do not let it run out. -/
structure DelayRuns (s : State) : Prop where
  busy : s.busy = true
  phase : s.phase = .gap
  noReset : .resetInput ∉ s.env.moves
  time : elapsedMs s.env.moves < s.hidden.gapLeft

theorem DelayRuns.step {s t : State} {m : Move} {rest : List Move} (hm : s.env.moves = m :: rest)
    (h : DelayRuns s) (he : step s = .next t) : t.env.moves = rest ∧ DelayRuns t := by
  obtain ⟨hb, hp, hreset, htime⟩ := h
  rw [hm] at hreset htime
  obtain ⟨hne, hrest⟩ : .resetInput ≠ m ∧ .resetInput ∉ rest := not_or.mp (mt List.mem_cons.mpr hreset)
  rcases step_of_busy hb hm hne.symm he with ⟨p, r, rfl, rfl⟩ | ⟨rfl, hc⟩ | ⟨k, rfl, rfl⟩ | ⟨bs, rfl, rfl⟩ | ⟨ms, rfl, rfl⟩
  · exact ⟨rfl, hb, hp, hrest, htime⟩
  · have hleft : s.hidden.gapLeft ≠ 0 := Nat.ne_zero_of_lt htime
    rw [coreMove_of_gapRunning (s := withMoves s rest) hp hleft] at hc
    cases hc
    exact ⟨rfl, hb, hp, hrest, htime⟩
  · rw [transportTakes_of_ne_tx (s := withMoves s rest) hp nofun]
    exact ⟨rfl, hb, hp, hrest, htime⟩
  · rw [transportGives_of_ne_rxWait (s := withMoves s rest) hp nofun]
    exact ⟨rfl, hb, hp, hrest, htime⟩
  · rw [timeElapses_of_gap (s := withMoves s rest) hp]
    exact ⟨rfl, hb, hp, hrest, Nat.lt_sub_iff_add_lt'.mpr htime⟩

end Sys2Proof.Machine

open Sys2Proof Sys2Proof.Machine

/-- Settles O37: each clause is one branch of the Core's move. -/
theorem exchangeStepByStep : Obligations.ExchangeStepByStep := by
  intro s rest hm
  rw [step_of_core hm]
  refine ⟨fun hp htaken ha => ?_, fun hp htaken ha => ?_, fun hp hends => ?_, fun hp hserved hf => ?_⟩
  · rw [coreMove_of_taken (s := withMoves s rest) hp htaken, afterTransmit_of_broadcast (by exact ha)]
    rfl
  · rw [coreMove_of_taken (s := withMoves s rest) hp htaken, afterTransmit_of_addressed (by exact ha)]
    rfl
  · rw [coreMove_of_windowEnds (s := withMoves s rest) hp ((windowEnds_iff _).mpr hends), closeWindow, store_received]
    rfl
  · rw [coreMove_of_gapServed (s := withMoves s rest) hp hserved, afterExchange_of_command (by exact hf)]
    rfl

/-- Settles O38, by cases over the ways a step can change `PHASE`. -/
theorem phaseSequence : Obligations.PhaseSequence := by
  refine ⟨fun s t hinv h hne => ?_, fun i s t hinv h hb => ?_⟩
  · rcases (step_phase h).resolve_left hne with ⟨hnext, -⟩ | ⟨hs, ht⟩ | ⟨rest, hs, rfl⟩ | ⟨rest, hs, rfl⟩ | ⟨hs, ht⟩
    · exact .inl hnext
    · exact .inr (.inl ⟨hs.elim (fun hb => (hinv.exchange.idle hb).1) id, ht⟩)
    · by_cases ha : s.opnd.devAddr = 0
      · rw [afterTransmit_of_broadcast (by exact ha)]
        exact .inr (.inr (.inr (.inl ⟨hs, rfl, ha⟩)))
      · rw [afterTransmit_of_addressed (by exact ha)]
        exact .inr (.inr (.inl ⟨hs, rfl, ha⟩))
    · exact .inr (.inr (.inr (.inr (.inl ⟨hs, rfl⟩))))
    · exact .inr (.inr (.inr (.inr (.inr ⟨hs, ht⟩))))
  · exact ((hinv.exec h).exchange.idle hb).1

/-- Settles O40: `WindowOpen` is kept by every move of the schedule. -/
theorem windowStaysOpen : Obligations.WindowStaysOpen := by
  intro s t ms hinv hp hreset htime hroom h
  have hb : s.busy = true := hinv.flow.busy_of_phase (by rw [hp]; nofun)
  have h0 : WindowOpen (s.hidden.rxAcc ++ delivered ms) (withMoves s ms) :=
    ⟨hb, hp, hreset, htime, rfl, by rw [List.length_append]; exact hroom⟩
  obtain ⟨hmoves, hopen⟩ := driven_invariant (fun _ _ _ _ => WindowOpen.step) h0 h
  refine ⟨hopen.phase, hopen.busy, ?_⟩
  rw [← hopen.bytes, hmoves, delivered, List.append_nil]

/-- Settles O41: `GAP` is entered when a window closes or a broadcast was sent, and `DelayRuns` is kept by every move. -/
theorem interFrameDelayIsServed : Obligations.InterFrameDelayIsServed := by
  refine ⟨fun s t h hs ht => ?_, fun s t ms hinv hp hreset htime h => ?_⟩
  · have hne : t.phase ≠ s.phase := fun e => hs (e.symm.trans ht)
    rcases (step_phase h).resolve_left hne with ⟨-, ht'⟩ | ⟨-, ht'⟩ | ⟨rest, -, rfl⟩ | ⟨rest, -, rfl⟩ | ⟨hs', -⟩
    · cases ht.symm.trans ht'
    · cases ht.symm.trans ht'
    · by_cases ha : s.opnd.devAddr = 0
      · rw [afterTransmit_of_broadcast (by exact ha)]
        rfl
      · rw [afterTransmit_of_addressed (by exact ha)] at ht
        cases ht
    · rfl
    · exact absurd hs' hs
  · have hb : s.busy = true := hinv.flow.busy_of_phase (by rw [hp]; nofun)
    have h0 : DelayRuns (withMoves s ms) := ⟨hb, hp, hreset, htime⟩
    obtain ⟨-, hruns⟩ := driven_invariant (fun _ _ _ _ => DelayRuns.step) h0 h
    exact ⟨hruns.phase, hruns.busy⟩

end

section
/-!
SUPPORT. What the operations of the Firmware Sequencer lead to (44_firmware_sequencer.md R240 to R254), one equation for each
case: the checks of an acknowledgement, the block fetch, the frames of a session, and the end of each of its exchanges.
-/
namespace Sys2Proof.Machine

/-! ### Acknowledgements (R245) -/

theorem ackOk_iff (r : List Byte) : ackOk r = true ↔ GoodAck r := by
  simp [ackOk, GoodAck]

theorem blockAckOk_iff (validate : Bool) (r : List Byte) : blockAckOk validate r = true ↔ GoodBlockAck validate r := by
  cases validate <;> simp [blockAckOk, GoodBlockAck]

/-- Initialize and Commit fail when acknowledgements are validated and theirs is not good. -/
theorem ackFails_iff (validate : Bool) (r : List Byte) :
    (validate && !ackOk r) = true ↔ validate = true ∧ ¬ GoodAck r := by
  rw [Bool.and_eq_true, ← ackOk_iff, Bool.not_eq_true', Bool.not_eq_true]

theorem GoodAck.blockAck {r : List Byte} (h : GoodAck r) (validate : Bool) : GoodBlockAck validate r :=
  ⟨h.1, fun _ => h.2⟩

/-! ### Blocks (R246, R248) -/

theorem blockBytesIn_eq (n k : Nat) : blockBytesIn n k = min 128 (n - 128 * k) := by
  simp only [blockBytesIn, Config.blockSize, Nat.mul_comm]

theorem length_paddedBlock (image : List Byte) (k : Nat) : (paddedBlock image k).length = 128 := by
  simp only [paddedBlock, List.length_append, List.length_take, List.length_drop, List.length_replicate]
  omega

theorem padBlock_image (image : List Byte) (k : Nat) :
    padBlock ((image.drop (k * Config.blockSize)).take (blockBytesIn image.length k)) = paddedBlock image k := by
  have htake : (image.drop (128 * k)).take (min 128 (image.length - 128 * k)) = (image.drop (128 * k)).take 128 := by
    rw [List.take_eq_take_iff, List.length_drop]
    omega
  have hlen : ((image.drop (128 * k)).take 128).length = min 128 (image.length - 128 * k) := by
    rw [List.length_take, List.length_drop]
  rw [blockBytesIn_eq, Nat.mul_comm k, padBlock, Config.blockSize, htake, hlen]
  rfl

/-- The state with block `BLK_IDX` of the image, padded, in `BLKBUF`. -/
def blockFetched (image : List Byte) (s : State) : State :=
  { s with session := { s.session with blkBuf := paddedBlock image s.session.blkIdx.toNat } }

/-- The fetch from a loaded image is defined, and writes the whole of `BLKBUF`. -/
theorem fetchBlock_of_load {s : State} {image : List Byte} (hmem : s.mem = Memory.load image)
    (hsize : s.session.imgSize.toNat = image.length) : fetchBlock s = some (blockFetched image s) := by
  have hread : s.mem.readRange (s.session.blkIdx.toNat * Config.blockSize)
      (blockBytesIn s.session.imgSize.toNat s.session.blkIdx.toNat) =
        some ((image.drop (s.session.blkIdx.toNat * Config.blockSize)).take
          (blockBytesIn image.length s.session.blkIdx.toNat)) := by
    rw [hmem, hsize, Memory.readRange_load, if_pos (blockBytesIn_le _ _)]
  rw [fetchBlock]
  dsimp only
  rw [hread, Option.map_some, padBlock_image]
  rfl

/-! ### The requests of a session (R243, R244, R247, R254) -/

/-- The operand registers of a request that writes `FW_MAGIC` to a register of the device. -/
def magicOperands (s : State) (register : U16) : Operands :=
  { s.opnd with devAddr := s.cfg.fwDevAddr, func := 0x06, regAddr := register, value1 := 0xF5F5 }

theorem sendMagic_eq (register : U16) (s : State) :
    sendMagic register s = started s (magicOperands s register) (magicBody s.cfg register) := by
  have hbody : (magicOperands s register).body = magicBody s.cfg register :=
    body_latch_of_payload (c := .singleRegister) s.opnd rfl fun _ _ => rfl
  have hsend : sendMagic register s = sendRequest { s with opnd := magicOperands s register } := rfl
  rw [hsend, sendRequest, buildFrame, beginExchange, Operands.frame, hbody, store_withCrc]
  rfl

theorem blockOperands_devAddr (s : State) : (blockOperands s).devAddr = s.cfg.fwDevAddr :=
  Operands.latchData_devAddr ..

theorem length_magicBody (c : Settings) (register : U16) : (magicBody c register).length = 6 := rfl

theorem length_blockBody (c : Settings) {block : List Byte} (h : block.length = 128) : (blockBody c block).length = 135 := by
  rw [blockBody, List.length_append, h]
  rfl

theorem blockOperands_eq {s : State} (h : s.session.blkBuf.length = 128) :
    blockOperands s = { s.opnd with
      devAddr := s.cfg.fwDevAddr, func := 0x10, regAddr := s.cfg.regBlkUpload, value1 := 64
      wData := inFront s.session.blkBuf s.opnd.wData, wLen := 128 } := by
  rw [blockOperands, Operands.latchData, if_pos (by rw [h]; decide), h]
  rfl

theorem body_blockOperands {s : State} (h : s.session.blkBuf.length = 128) :
    (blockOperands s).body = blockBody s.cfg s.session.blkBuf :=
  body_of_data s.opnd s.cfg.fwDevAddr s.cfg.regBlkUpload (v1 := 64) (by decide) h

theorem sendBlock_eq_started {s : State} (h : s.session.blkBuf.length = 128) :
    sendBlock s = started s (blockOperands s) (blockBody s.cfg s.session.blkBuf) := by
  rw [sendBlock_eq, sendRequest, buildFrame, beginExchange, Operands.frame, body_blockOperands h, store_withCrc]
  rfl

/-- Between two exchanges of a session `BUSY` is 1 already. -/
theorem started_of_busy {s : State} (hb : s.busy = true) (o : Operands) (body : List Byte) :
    started s o body = { s with phase := .tx, opnd := o, tx := frameIn s body, hidden := .reset } := by
  simp only [started, hb]

/-! ### The start of a session (R240) -/

theorem fwCheck_of_state {s : State} (h : s.session.fwState ≠ .idle) (image : List Byte) : fwCheck image s = some 9 :=
  if_pos h

/-- In `Idle` the address is checked before the size of the image. -/
theorem fwCheck_of_idle {s : State} (h : s.session.fwState = .idle) (image : List Byte) :
    fwCheck image s = if 248 ≤ s.cfg.fwDevAddr.toNat then some 2
      else if Config.imgMax.toNat < image.length then some 10 else none :=
  if_neg (not_not.mpr h)

theorem fwCheck_of_legal {s : State} {image : List Byte} (h : s.session.fwState = .idle) (ha : s.cfg.fwDevAddr.toNat ≤ 247)
    (hsize : image.length ≤ Config.imgMax.toNat) : fwCheck image s = none := by
  rw [fwCheck_of_idle h, if_neg (by omega), if_neg (Nat.not_lt.mpr hsize)]

theorem exec_fwStart_of_refused {s : State} {image : List Byte} {k : Byte} (hb : s.busy = false)
    (hk : fwCheck image s = some k) : Refuses s (.fwStart image) s.opnd k := by
  rw [Refuses, exec, execFwStart, whenIdle_idle hb, hk, ← raise_of_idle hb]
  rfl

/-- The state in which a session's exchange of Initialize just began. -/
def sessionStarted (image : List Byte) (s : State) : State :=
  started (startSession image s) (magicOperands s s.cfg.regUpdInit) (magicBody s.cfg s.cfg.regUpdInit)

theorem exec_fwStart_of_accepted {s : State} {image : List Byte} (hb : s.busy = false) (hk : fwCheck image s = none) :
    exec (.fwStart image) s = .next (sessionStarted image s) := by
  rw [exec, execFwStart, whenIdle_idle hb, hk, endChecked, sendMagic_eq]
  rfl

/-! ### The end of an exchange of a session -/

/-- The session registers with the raw response of Initialize recorded (R244). -/
def recorded (s : State) : Session :=
  { s.session with
    initResp := inFront s.rx.bytes s.session.initResp, initRespLen := BitVec.ofNat 4 s.rx.bytes.length }

theorem afterInitialize_of_accepted {s : State} (h : s.cfg.fwValidateAcks = true → GoodAck s.rx.bytes) :
    afterInitialize s = { s with session := { recorded s with fwState := .transferring } } :=
  if_neg (by rw [ackFails_iff]; exact fun hf => hf.2 (h hf.1))

theorem afterInitialize_of_failed {s : State} (hv : s.cfg.fwValidateAcks = true) (h : ¬ GoodAck s.rx.bytes) :
    afterInitialize s = endSession .failed { s with session := recorded s } :=
  if_pos ((ackFails_iff _ _).mpr ⟨hv, h⟩)

/-- The session registers with one block more counted, image bytes only (R249, R251). -/
def counted (s : State) : Session :=
  { s.session with
    bytesDone := s.session.bytesDone + BitVec.ofNat 32 (blockBytesIn s.session.imgSize.toNat s.session.blkIdx.toNat)
    blkIdx := s.session.blkIdx + 1 }

/-- A block of the image leaves `BLK_IDX` room to advance (R249). -/
theorem counted_blkIdx {s : State} (hlt : s.session.blkIdx.toNat < s.session.blkCnt.toNat) :
    (counted s).blkIdx.toNat = s.session.blkIdx.toNat + 1 := by
  have hmax := s.session.blkCnt.isLt
  rw [counted, BitVec.toNat_add, Nat.mod_eq_of_lt (by simp; omega)]
  rfl

theorem afterBlock_of_accepted {s : State} (h : GoodBlockAck s.cfg.fwValidateAcks s.rx.bytes) :
    afterBlock s = { s with session := counted s } :=
  if_pos ((blockAckOk_iff _ _).mpr h)

theorem afterBlock_of_failed {s : State} (h : ¬ GoodBlockAck s.cfg.fwValidateAcks s.rx.bytes) :
    afterBlock s = endSession .failed s :=
  if_neg (mt (blockAckOk_iff _ _).mp h)

/-- The state with `COMMIT_ELAPSED_MS` drawn (R254, log entry 7). -/
def commitTimed (s : State) : State :=
  { s with
    session := { s.session with commitElapsedMs := Config.commitElapsedMs s.env.draws }
    env := { s.env with draws := s.env.draws + 1 } }

theorem afterCommit_of_accepted {s : State} (h : s.cfg.fwValidateAcks = true → GoodAck s.rx.bytes) :
    afterCommit s = endSession .done (commitTimed s) :=
  if_neg (by rw [ackFails_iff]; exact fun hf => hf.2 (h hf.1))

theorem afterCommit_of_failed {s : State} (hv : s.cfg.fwValidateAcks = true) (h : ¬ GoodAck s.rx.bytes) :
    afterCommit s = endSession .failed (commitTimed s) :=
  if_pos ((ackFails_iff _ _).mpr ⟨hv, h⟩)

theorem afterExchange_of_initializing {s : State} (h : s.session.fwState = .initializing) :
    afterExchange s = afterInitialize s := by
  simp only [afterExchange, h]

theorem afterExchange_of_transferring {s : State} (h : s.session.fwState = .transferring) :
    afterExchange s = afterBlock s := by
  simp only [afterExchange, h]

theorem afterExchange_of_committing {s : State} (h : s.session.fwState = .committing) :
    afterExchange s = afterCommit s := by
  simp only [afterExchange, h]

/-! ### The Core's moves in a session -/

theorem step_of_exchangeEnds {s : State} {rest : List Move} (h : ExchangeEnds s) (hm : s.env.moves = .core :: rest) :
    step s = .next (afterExchange (endExchange (withMoves s rest))) := by
  obtain ⟨hp, hserved, -⟩ := h
  rw [step_of_core hm, coreMove_of_gapServed (s := withMoves s rest) hp hserved]

theorem continueSession_of_block {s s1 : State} (hf : s.session.fwState = .transferring)
    (hlt : s.session.blkIdx.toNat < s.session.blkCnt.toNat) (hfetch : fetchBlock s = some s1) :
    continueSession s = .next (sendBlock s1) := by
  simp only [continueSession, hf, if_pos hlt, hfetch]

theorem continueSession_of_lastBlock {s : State} (hf : s.session.fwState = .transferring)
    (hall : s.session.blkIdx = s.session.blkCnt) :
    continueSession s = .next { s with session := { s.session with fwState := .committing } } := by
  simp only [continueSession, hf, hall, lt_irrefl, if_false]

theorem continueSession_of_committing {s : State} (hf : s.session.fwState = .committing) :
    continueSession s = .next (sendMagic s.cfg.regUpdRun s) := by
  simp only [continueSession, hf]

section
variable {s : State} {rest : List Move} (hb : s.busy = true) (hp : s.phase = .idle) (hm : s.env.moves = .core :: rest)
include hb hp hm

/-- Between two exchanges of a session the Core goes on with the session. -/
theorem step_of_between : step s = continueSession (withMoves s rest) := by
  rw [step_of_core hm]
  simp only [coreMove, withMoves, hp, if_pos hb]

/-- The next block of a loaded image is fetched, and its exchange begins (R247, R248). -/
theorem step_of_block {image : List Byte} (hf : s.session.fwState = .transferring) (hmem : s.mem = Memory.load image)
    (hsize : s.session.imgSize.toNat = image.length) (hlt : s.session.blkIdx.toNat < s.session.blkCnt.toNat) :
    step s = .next (started (blockFetched image (withMoves s rest)) (blockOperands (blockFetched image (withMoves s rest)))
      (blockBody s.cfg (paddedBlock image s.session.blkIdx.toNat))) := by
  have hfetch := fetchBlock_of_load (s := withMoves s rest) hmem hsize
  rw [step_of_between hb hp hm, continueSession_of_block (s := withMoves s rest) hf hlt hfetch,
    sendBlock_eq_started (length_paddedBlock _ _)]
  rfl

/-- After the last block the session changes to Commit (R254). -/
theorem step_of_lastBlock (hf : s.session.fwState = .transferring) (hall : s.session.blkIdx = s.session.blkCnt) :
    step s = .next { withMoves s rest with session := { s.session with fwState := .committing } } :=
  (step_of_between hb hp hm).trans (continueSession_of_lastBlock (s := withMoves s rest) hf hall)

/-- The exchange of Commit begins (R254). -/
theorem step_of_committing (hf : s.session.fwState = .committing) :
    step s = .next (started (withMoves s rest) (magicOperands s s.cfg.regUpdRun) (magicBody s.cfg s.cfg.regUpdRun)) := by
  rw [step_of_between hb hp hm, continueSession_of_committing (s := withMoves s rest) hf, sendMagic_eq]
  rfl

end

end Sys2Proof.Machine

open Sys2Proof Sys2Proof.Machine

/-- Settles O49: the checks of `FW_START` in their order; an accepted one begins the exchange of Initialize. -/
theorem fwStartCommand : Obligations.FwStartCommand := by
  intro s image hb
  refine ⟨rfl, fun hf ha hsize => ?_, fun hf => ?_, fun hf ha => ?_, fun hf ha hsize => ?_⟩
  · rw [exec_fwStart_of_accepted hb (fwCheck_of_legal hf ha hsize)]
    rfl
  · exact exec_fwStart_of_refused hb (fwCheck_of_state hf image)
  · exact exec_fwStart_of_refused hb (by rw [fwCheck_of_idle hf, if_pos ha])
  · exact exec_fwStart_of_refused hb (by rw [fwCheck_of_idle hf, if_neg (by omega), if_pos hsize])

/-- Settles O51: the fetch from a loaded image is defined and rewrites `BLKBUF`, whose bytes are the data of the request. -/
theorem blockIsFetchedAndSent : Obligations.BlockIsFetchedAndSent := by
  intro s image rest k hb hp hf hmem hsize hcnt hlt hm
  rw [step_of_block hb hp hm hf hmem hsize hlt, blockOperands_eq (length_paddedBlock _ _), started_of_busy (by exact hb)]
  rfl

/-- Settles O52: the two cases of the check of Initialize. -/
theorem initializeEnds : Obligations.InitializeEnds := by
  intro s rest hends hm hf r c _
  rw [step_of_exchangeEnds hends hm, afterExchange_of_initializing (by exact hf)]
  refine ⟨fun hgood => ?_, fun hv hbad => ?_⟩
  · rw [afterInitialize_of_accepted (s := endExchange (withMoves s rest))
      (fun hv => hgood.resolve_left (by rw [show s.cfg.fwValidateAcks = true from hv]; nofun))]
    rfl
  · rw [afterInitialize_of_failed (s := endExchange (withMoves s rest)) hv hbad]
    rfl

/-- Settles O53: the two cases of the check of a block. -/
theorem blockEnds : Obligations.BlockEnds := by
  intro s rest hends hm hf r c
  rw [step_of_exchangeEnds hends hm, afterExchange_of_transferring (by exact hf)]
  refine ⟨fun hgood => ?_, fun hbad => ?_⟩
  · rw [afterBlock_of_accepted (s := endExchange (withMoves s rest)) hgood, counted, blockBytesIn_eq]
    rfl
  · rw [afterBlock_of_failed (s := endExchange (withMoves s rest)) hbad]
    rfl

/-- Settles O54: the change to Commit after the last block, the commit frame, and the two cases of the check of Commit. -/
theorem commitPhase : Obligations.CommitPhase := by
  intro s rest hm r c
  refine ⟨fun hb hp hf hall => ?_, fun hb hp hf => ?_, fun hends hf => ?_⟩
  · exact step_of_lastBlock hb hp hm hf hall
  · rw [step_of_committing hb hp hm hf, started_of_busy (by exact hb)]
    rfl
  · refine ⟨Config.commitElapsedMs s.env.draws, s.env.draws + 1, fun f hcase => ?_⟩
    rw [step_of_exchangeEnds hends hm, afterExchange_of_committing (by exact hf)]
    rcases hcase with ⟨rfl, hgood⟩ | ⟨rfl, hv, hbad⟩
    · rw [afterCommit_of_accepted (s := endExchange (withMoves s rest)) hgood]
      rfl
    · rw [afterCommit_of_failed (s := endExchange (withMoves s rest)) hv hbad]
      rfl

/-- Settles O56: arithmetic on the two definitions. -/
theorem blockCountAndPadding : Obligations.BlockCountAndPadding := by
  intro n
  have hcount : blockCount n = (n + 127) / 128 := rfl
  refine ⟨hcount, ?_, ?_, fun k hk => ?_⟩
  · rw [hcount]
    split <;> omega
  · rw [hcount]
    split <;> omega
  · rw [hcount] at hk
    rw [blockBytesIn_eq]
    omega

end

section
/-!
SUPPORT. The configuration registers (10_state.md R37 to R44) and the session registers (R45 to R50) over a step. What can
change them is a reset, `CFG_WRITE`, an accepted `FW_START`, or a move of the Core in a session (44_firmware_sequencer.md
R241).
-/
namespace Sys2Proof.Machine

/-! ### Operations that touch neither -/

/-- From `s` to `t` the configuration registers and the session registers stay. -/
structure KeepsControl (s t : State) : Prop where
  cfg : t.cfg = s.cfg
  session : t.session = s.session

namespace KeepsControl
variable {s t : State}

theorem whenIdle {f : State → State} (he : whenIdle s (fun s => .next (f s)) = .next t) (hf : KeepsControl s (f s)) :
    KeepsControl s t := by
  rcases whenIdle_next he with ⟨-, rfl⟩ | ⟨-, rfl⟩
  exacts [⟨rfl, rfl⟩, hf]

/-- A refusal writes the result only (R290). -/
theorem endChecked (check : Option Byte) {ok : State → State} (h : KeepsControl s (ok s)) :
    KeepsControl s (endChecked check s ok) := by
  rcases endChecked_cases check s ok with ⟨k, -, e⟩ | ⟨-, e⟩ <;> rw [e]
  exacts [⟨rfl, rfl⟩, h]

theorem buildRequestOp (a fc : Byte) (reg v1 : U16) (v2 : Value2) : KeepsControl s (buildRequestOp a fc reg v1 v2 s) := by
  rcases buildRequestOp_cases a fc reg v1 v2 s with ⟨k, -, e⟩ | ⟨-, -, e⟩ <;> rw [e] <;> exact ⟨rfl, rfl⟩

theorem arbiterOp (o : Operands) (d c : Nat) : KeepsControl s (arbiterOp o d c s) := by
  rcases arbiterOp_cases o d c s with ⟨k, -, e⟩ | ⟨-, -, -, e⟩ <;> rw [e] <;> exact ⟨rfl, rfl⟩

/-- Every instruction but `SOFT_RESET`, `FW_START` and `CFG_WRITE`. -/
theorem exec {i : Instr} (hreset : i ≠ .softReset) (hstart : ∀ image, i ≠ .fwStart image)
    (hcfg : ∀ number v, i ≠ .cfgWrite number v) (he : exec i s = .next t) : KeepsControl s t := by
  cases i with simp only [Machine.exec] at he
  | softReset => exact absurd rfl hreset
  | fwStart image => exact absurd rfl (hstart image)
  | cfgWrite number v => exact absurd rfl (hcfg number v)
  | crcInit | crcByte | decCrcok => exact whenIdle he ⟨rfl, rfl⟩
  | regRead | bufRead => cases he; exact ⟨rfl, rfl⟩
  | buildRequest | reqReadCoils | reqReadDiscreteInputs | reqReadHoldingRegisters | reqReadInputRegisters
  | reqWriteSingleCoil | reqWriteSingleRegister | reqWriteMultipleCoils | reqWriteMultipleRegisters
  | reqExceptionClass => exact whenIdle he (buildRequestOp ..)
  | parseResponse | decFc | decErrbc | decRegs | decCoils => exact whenIdle he (endChecked _ ⟨rfl, rfl⟩)
  | readHoldingRegisters | readCoils | writeSingleRegister | writeSingleCoil | writeMultipleRegisters
  | writeMultipleCoils => exact whenIdle he (arbiterOp ..)

theorem afterTransmit (s : State) : KeepsControl s (afterTransmit s) := by
  unfold Machine.afterTransmit
  split <;> exact ⟨rfl, rfl⟩

theorem transportTakes (k : Nat) (s : State) : KeepsControl s (transportTakes k s) := by
  unfold Machine.transportTakes
  split <;> exact ⟨rfl, rfl⟩

theorem transportGives (bs : List Byte) (s : State) : KeepsControl s (transportGives bs s) := by
  unfold Machine.transportGives
  split <;> exact ⟨rfl, rfl⟩

theorem timeElapses (ms : Nat) (s : State) : KeepsControl s (timeElapses ms s) := by
  unfold Machine.timeElapses
  split <;> exact ⟨rfl, rfl⟩

end KeepsControl

/-! ### The three commands that do -/

theorem execSoftReset_control {s t : State} (he : execSoftReset s = .next t) :
    KeepsControl s t ∨ t.session = Session.reset := by
  rcases whenIdle_next he with ⟨-, rfl⟩ | ⟨-, rfl⟩
  exacts [.inl ⟨rfl, rfl⟩, .inr rfl]

theorem execCfgWrite_control {s t : State} {number : Byte} {v : U16} (he : execCfgWrite number v s = .next t) :
    KeepsControl s t ∨ (s.busy = false ∧ t.session = s.session) := by
  rcases whenIdle_next he with ⟨-, rfl⟩ | ⟨hb, rfl⟩
  · exact .inl ⟨rfl, rfl⟩
  · refine .inr ⟨hb, ?_⟩
    cases writeSetting s.cfg number v <;> rfl

theorem execFwStart_control {s t : State} {image : List Byte} (he : execFwStart image s = .next t) :
    KeepsControl s t ∨
    (s.session.fwState = .idle ∧ t.cfg = s.cfg ∧ t.session = (startSession image s).session) := by
  rcases whenIdle_next he with ⟨-, rfl⟩ | ⟨-, rfl⟩
  · exact .inl ⟨rfl, rfl⟩
  rcases endChecked_cases (fwCheck image s) s (fun s => sendMagic s.cfg.regUpdInit (startSession image s))
    with ⟨k, -, e⟩ | ⟨hk, e⟩ <;> rw [e]
  · exact .inl ⟨rfl, rfl⟩
  · exact .inr ⟨fwCheck_none_idle hk, rfl, rfl⟩

/-! ### The Core's moves -/

/-- The ways a move of the Core from `s` to `t` can change session registers: the rows of R241, the fetch of a block (R248) and
the count of one (R249, R251). -/
inductive SessionMove (s t : State) : Prop
  | initialized (hs : s.session.fwState = .initializing) (hends : ExchangeEnds s)
    (hgood : s.cfg.fwValidateAcks = true → GoodAck s.rx.bytes)
    (ht : t.session = { recorded s with fwState := .transferring })
  | initializeFails (hs : s.session.fwState = .initializing) (hends : ExchangeEnds s)
    (hv : s.cfg.fwValidateAcks = true) (hbad : ¬ GoodAck s.rx.bytes)
    (ht : t.session = { recorded s with fwState := .failed })
  | blockFetched (hs : s.session.fwState = .transferring) (block : List Byte)
    (ht : t.session = { s.session with blkBuf := block })
  | blockCounted (hs : s.session.fwState = .transferring) (hends : ExchangeEnds s)
    (hgood : GoodBlockAck s.cfg.fwValidateAcks s.rx.bytes) (ht : t.session = counted s)
  | blockFails (hs : s.session.fwState = .transferring) (hends : ExchangeEnds s)
    (hbad : ¬ GoodBlockAck s.cfg.fwValidateAcks s.rx.bytes) (ht : t.session = { s.session with fwState := .failed })
  | commits (hs : s.session.fwState = .transferring) (hp : s.phase = .idle)
    (hall : s.session.blkCnt.toNat ≤ s.session.blkIdx.toNat) (ht : t.session = { s.session with fwState := .committing })
  | committed (hs : s.session.fwState = .committing) (hends : ExchangeEnds s)
    (hgood : s.cfg.fwValidateAcks = true → GoodAck s.rx.bytes) (e : U32)
    (ht : t.session = { s.session with fwState := .done, commitElapsedMs := e })
  | commitFails (hs : s.session.fwState = .committing) (hends : ExchangeEnds s)
    (hv : s.cfg.fwValidateAcks = true) (hbad : ¬ GoodAck s.rx.bytes) (e : U32)
    (ht : t.session = { s.session with fwState := .failed, commitElapsedMs := e })

theorem SessionMove.inSession {s t : State} (h : SessionMove s t) : inSession s.session.fwState = true := by
  cases h with
  | initialized hs | initializeFails hs | blockFetched hs | blockCounted hs | blockFails hs | commits hs | committed hs
  | commitFails hs => rw [hs]; rfl

theorem afterExchange_cfg (s : State) : (afterExchange s).cfg = s.cfg := by
  unfold afterExchange
  split
  · unfold afterInitialize; dsimp only; split <;> rfl
  · unfold afterBlock; split <;> rfl
  · unfold afterCommit; dsimp only; split <;> rfl
  all_goals rfl

/-- What the end of an exchange does to the session registers, by `FW_STATE` and the check of the response (R244, R245). -/
theorem afterExchange_session {s : State} (hends : ExchangeEnds s) (rest : List Move) :
    (afterExchange (endExchange (withMoves s rest))).session = s.session ∨
    SessionMove s (afterExchange (endExchange (withMoves s rest))) := by
  cases hf : s.session.fwState with
  | initializing =>
    rw [afterExchange_of_initializing (by exact hf)]
    by_cases hgood : s.cfg.fwValidateAcks = true → GoodAck s.rx.bytes
    · rw [afterInitialize_of_accepted (by exact hgood)]
      exact .inr (.initialized hf hends hgood rfl)
    · obtain ⟨hv, hbad⟩ := Classical.not_imp.mp hgood
      rw [afterInitialize_of_failed (by exact hv) (by exact hbad)]
      exact .inr (.initializeFails hf hends hv hbad rfl)
  | transferring =>
    rw [afterExchange_of_transferring (by exact hf)]
    by_cases hgood : GoodBlockAck s.cfg.fwValidateAcks s.rx.bytes
    · rw [afterBlock_of_accepted (by exact hgood)]
      exact .inr (.blockCounted hf hends hgood rfl)
    · rw [afterBlock_of_failed (by exact hgood)]
      exact .inr (.blockFails hf hends hgood rfl)
  | committing =>
    rw [afterExchange_of_committing (by exact hf)]
    by_cases hgood : s.cfg.fwValidateAcks = true → GoodAck s.rx.bytes
    · rw [afterCommit_of_accepted (by exact hgood)]
      exact .inr (.committed hf hends hgood _ rfl)
    · obtain ⟨hv, hbad⟩ := Classical.not_imp.mp hgood
      rw [afterCommit_of_failed (by exact hv) (by exact hbad)]
      exact .inr (.commitFails hf hends hv hbad _ rfl)
  | idle | done | failed =>
    rw [afterExchange_of_command (by change inSession s.session.fwState = false; rw [hf]; rfl)]
    exact .inl rfl

theorem coreMove_control {s t : State} {rest : List Move} (hm : s.env.moves = .core :: rest)
    (h : coreMove (withMoves s rest) = .next t) : t.cfg = s.cfg ∧ (t.session = s.session ∨ SessionMove s t) := by
  rcases coreMove_cases h with rfl | ⟨-, -, rfl⟩ | ⟨-, -, rfl⟩ | ⟨hp, hserved, rfl⟩ | ⟨-, -, hf, -, s1, h1, rfl⟩ |
    ⟨hp, -, hf, hall, rfl⟩ | ⟨-, -, -, rfl⟩
  · exact ⟨rfl, .inl rfl⟩
  · obtain ⟨hcfg, hsession⟩ := KeepsControl.afterTransmit (withMoves s rest)
    exact ⟨hcfg, .inl hsession⟩
  · exact ⟨rfl, .inl rfl⟩
  · exact ⟨afterExchange_cfg _, afterExchange_session (s := s) ⟨hp, hserved, rest, hm⟩ rest⟩
  · obtain ⟨bs, -, rfl⟩ := fetchBlock_some h1
    exact ⟨rfl, .inr (.blockFetched hf _ rfl)⟩
  · exact ⟨rfl, .inr (.commits hf hp (Nat.not_lt.mp hall) rfl)⟩
  · exact ⟨rfl, .inl rfl⟩

/-! ### The registers over a step -/

/-- The ways a step from `s` to `t` can change configuration or session registers. -/
inductive ControlChange (s t : State) : Prop
  | reset (hnext : ResetNext s) (ht : t.session = Session.reset)
  | configures (hb : s.busy = false) (number : Byte) (v : U16) (hnext : Presents s (.cfgWrite number v))
    (ht : t.session = s.session)
  | starts (image : List Byte) (hnext : Presents s (.fwStart image)) (hs : s.session.fwState = .idle) (hcfg : t.cfg = s.cfg)
    (ht : t.session = (startSession image s).session)
  | core (hcfg : t.cfg = s.cfg) (hmove : SessionMove s t)

theorem exec_control {s t : State} {i : Instr} {p : Presented} {rest : List Move} (hm : s.env.moves = .host p :: rest)
    (hp : decode p = .instr i) (he : exec i (withMoves s rest) = .next t) : KeepsControl s t ∨ ControlChange s t := by
  have hpres : Presents s i := ⟨p, rest, hm, hp⟩
  by_cases hreset : i = .softReset
  · subst hreset
    exact (execSoftReset_control he).imp (fun hk => { hk with }) (.reset ⟨_, rest, hm, .inr ⟨p, rfl, hp⟩⟩)
  by_cases hstart : ∃ image, i = .fwStart image
  · obtain ⟨image, rfl⟩ := hstart
    exact (execFwStart_control he).imp (fun hk => { hk with }) fun ⟨hs, hcfg, ht⟩ => .starts image hpres hs hcfg ht
  by_cases hwrite : ∃ number v, i = .cfgWrite number v
  · obtain ⟨number, v, rfl⟩ := hwrite
    exact (execCfgWrite_control he).imp (fun hk => { hk with }) fun ⟨hb, ht⟩ => .configures hb number v hpres ht
  · have hk := KeepsControl.exec hreset (fun image e => hstart ⟨image, e⟩) (fun n v e => hwrite ⟨n, v, e⟩) he
    exact .inl { hk with }

theorem step_control {s t : State} (h : step s = .next t) : KeepsControl s t ∨ ControlChange s t := by
  rcases step_cases h with ⟨-, rfl⟩ | ⟨m, rest, hm, hmove⟩
  · exact .inl ⟨rfl, rfl⟩
  have keep (hk : KeepsControl (withMoves s rest) t) : KeepsControl s t := { hk with }
  rcases hmove with ⟨p, i, rfl, hp, hi⟩ | ⟨p, op, -, -, hi⟩ | ⟨p, e, a, fc, reg, v1, v2, -, -, hi⟩ | ⟨rfl, rfl⟩ |
    ⟨rfl, hc⟩ | ⟨k, -, rfl⟩ | ⟨bs, -, rfl⟩ | ⟨ms, -, rfl⟩
  · exact exec_control hm hp hi
  · exact .inl (keep (.whenIdle hi ⟨rfl, rfl⟩))
  · exact .inl (keep (.exec (i := .buildRequest a fc reg v1 v2) nofun (fun _ => nofun) (fun _ _ => nofun) hi))
  · exact .inr (.reset ⟨_, rest, hm, .inl rfl⟩ rfl)
  · obtain ⟨hcfg, hsession | hmove⟩ := coreMove_control hm hc
    exacts [.inl ⟨hcfg, hsession⟩, .inr (.core hcfg hmove)]
  · exact .inl (keep (.transportTakes k _))
  · exact .inl (keep (.transportGives bs _))
  · exact .inl (keep (.timeElapses ms _))

/-- While a block's exchange is in progress, the block is one of the image's. -/
theorem Inv.blkIdx_lt {s : State} (h : Inv s) (hs : s.session.fwState = .transferring) (hends : ExchangeEnds s) :
    s.session.blkIdx.toNat < s.session.blkCnt.toNat := by
  obtain ⟨hp, -⟩ := hends
  exact h.session.inBlock hs (by rw [hp]; nofun)

end Sys2Proof.Machine

open Sys2Proof Sys2Proof.Machine

/-- Settles O48, by cases over what a step can change. -/
theorem onlyCfgWriteChangesSettings : Obligations.OnlyCfgWriteChangesSettings := by
  intro s t h hne
  rcases step_control h with hk | ⟨hnext, -⟩ | ⟨hb, number, v, hnext, -⟩ | ⟨_, -, -, hcfg, -⟩ | ⟨hcfg, -⟩
  · exact absurd hk.cfg hne
  · exact .inl hnext
  · exact .inr ⟨hb, number, v, hnext⟩
  · exact absurd hcfg hne
  · exact absurd hcfg hne

/-- Settles O50: a change of `FW_STATE` is a reset, an accepted `FW_START`, or one of the Core's moves in a session. -/
theorem fwStateTransitions : Obligations.FwStateTransitions := by
  intro s t hinv h hne r v is
  have same (ht : t.session.fwState = s.session.fwState) {P : Prop} : P := absurd ht hne
  rcases step_control h with hk | ⟨hnext, ht⟩ | ⟨-, number, v, -, ht⟩ | ⟨image, hnext, hs, -, ht⟩ | ⟨-, hmove⟩
  · exact same (by rw [hk.session])
  · exact .inl ⟨hnext, by rw [ht]; rfl⟩
  · exact same (by rw [ht])
  · exact .inr (.inl ⟨⟨hs, by rw [ht]; rfl⟩, image, hnext⟩)
  refine .inr (.inr ?_)
  rcases hmove with ⟨hs, hends, hgood, ht⟩ | ⟨hs, hends, hv, hbad, ht⟩ | ⟨hs, block, ht⟩ | ⟨hs, hends, hgood, ht⟩ |
    ⟨hs, hends, hbad, ht⟩ | ⟨hs, hp, hall, ht⟩ | ⟨hs, hends, hgood, e, ht⟩ | ⟨hs, hends, hv, hbad, e, ht⟩
  · exact .inl ⟨⟨hs, by rw [ht]⟩, hends, hgood⟩
  · exact .inr (.inl ⟨⟨hs, by rw [ht]⟩, hends, hv, hbad⟩)
  · exact same (by rw [ht])
  · exact same (by rw [ht]; rfl)
  · exact .inr (.inr (.inr (.inl ⟨⟨hs, by rw [ht]⟩, hends, hbad⟩)))
  · have hidx : s.session.blkIdx = s.session.blkCnt :=
      BitVec.eq_of_toNat_eq (Nat.le_antisymm hinv.session.blkIdx hall)
    exact .inr (.inr (.inl ⟨⟨hs, by rw [ht]⟩, hp, hidx⟩))
  · exact .inr (.inr (.inr (.inr (.inl ⟨⟨hs, by rw [ht]⟩, hends, hgood⟩))))
  · exact .inr (.inr (.inr (.inr (.inr ⟨⟨hs, by rw [ht]⟩, hends, hv, hbad⟩))))

/-- Settles O55: in `Done` and `Failed` neither `FW_START` is accepted nor does the Core have a move of a session. -/
theorem finalStatesAreAbsorbing : Obligations.FinalStatesAreAbsorbing := by
  intro s t hfinal h
  rcases step_control h with hk | ⟨hnext, -⟩ | ⟨-, _, _, -, ht⟩ | ⟨_, -, hs, -⟩ | ⟨-, hmove⟩
  · exact .inr hk.session
  · exact .inl hnext
  · exact .inr ht
  · rcases hfinal with hf | hf <;> cases hs.symm.trans hf
  · have hin := hmove.inSession
    rcases hfinal with hf | hf <;> rw [hf] at hin <;> cases hin

/-- Settles O57: of the Core's moves only the count of a block changes `BLK_IDX`; the bound is part of the invariant. -/
theorem blkIdxMoves : Obligations.BlkIdxMoves := by
  intro s t hinv h
  refine ⟨(hinv.step h).session.blkIdx, ?_⟩
  rcases step_control h with hk | ⟨hnext, -⟩ | ⟨-, _, _, -, ht⟩ | ⟨image, hnext, -, -, ht⟩ | ⟨-, hmove⟩
  · exact .inr (.inl (by rw [hk.session]))
  · exact .inl hnext
  · exact .inr (.inl (by rw [ht]))
  · exact .inr (.inr (.inr ⟨by rw [ht]; rfl, image, hnext⟩))
  refine .inr ?_
  cases hmove with
  | blockCounted hs hends hgood ht =>
    exact .inr (.inl ⟨by rw [ht]; exact counted_blkIdx (hinv.blkIdx_lt hs hends), hs, hends, hgood⟩)
  | initialized _ _ _ ht | initializeFails _ _ _ _ ht => exact .inl (by rw [ht]; rfl)
  | blockFetched _ _ ht | blockFails _ _ _ ht | commits _ _ _ ht | committed _ _ _ _ ht | commitFails _ _ _ _ _ ht =>
    exact .inl (by rw [ht])

end

section
/-!
SUPPORT. A whole session as a run (44_firmware_sequencer.md R242, R251, R256): one rule for an exchange of a session, and what
holds after the exchange of Initialize and is kept by the exchange of each block.
-/
namespace Sys2Proof.Machine

/-! ### One exchange of a session -/

/-- The exchange that began in `t` has the answer `r`, and its inter-frame delay has been served: what is left is its
classification (R202). -/
def exchanged (t : State) (r : List Byte) (e : U16) (h : Hidden) : State :=
  { t with
    phase := .gap
    rx := bytesIn t r e
    hidden := h
    env := { t.env with wire := t.env.wire ++ t.tx.bytes } }

theorem exchanged_bytes (t : State) {r : List Byte} (hr : r.length < 65536) (e : U16) (h : Hidden) :
    (exchanged t r e h).rx.bytes = r := by
  rw [exchanged, ← store_received, RxFrame.store_bytes _ _ _ hr]

theorem exchanged_goodAck (t : State) {r : List Byte} (hr : GoodAck r) (e : U16) (h : Hidden) :
    GoodAck (exchanged t r e h).rx.bytes := by
  rw [exchanged_bytes t (by rw [hr.1]; decide)]
  exact hr

/-- A broadcast is not acknowledged. -/
theorem exchanged_not_goodAck (t : State) (e : U16) (h : Hidden) : ¬ GoodAck (exchanged t [] e h).rx.bytes := by
  rw [exchanged_bytes t (by decide)]
  exact fun hgood => absurd hgood.1 (by decide)

/-- The state of an open window that collected `r`. -/
def windowFilled (r : List Byte) (s : State) : State := { s with hidden := { s.hidden with rxAcc := r } }

/-- An open window that gets all the bytes it expects closes at the next move of the Core (R205). -/
theorem driven_fullWindow {s : State} (ms : List Move) {r : List Byte} (hp : s.phase = .rxWait) (hacc : s.hidden.rxAcc = [])
    (hr : r.length = s.rx.exp.toNat) :
    driven s (.gives r :: .core :: ms) = driven (closeWindow r s.rx.exp (windowFilled r s)) ms := by
  have hall : s.hidden.rxAcc ++ r.take (s.rx.exp.toNat - s.hidden.rxAcc.length) = r := by
    rw [hacc, List.nil_append]
    exact List.take_of_length_le hr.le
  rw [driven_gives, transportGives_of_rxWait hp, hall]
  exact driven_core_of_windowEnds ms hp ((windowEnds_iff _).mpr (.inl hr.ge))

theorem classify_of_broadcast {a : Byte} (h : a = 0) (n : Nat) (r : List Byte) : classify a n r = (.noResponse, 0) := if_pos h

section
variable {t : State} (hp : t.phase = .tx) (h0 : t.hidden.txPos = 0)
include hp h0

/-- The exchange of a request that a device answers with the eight bytes of an acknowledgement. -/
theorem driven_sessionExchange {c : State} {n : Nat} {r : List Byte} (ms : List Move) (hn : t.tx.len.toNat = n)
    (ha : t.opnd.devAddr ≠ 0) (hexp : expectedLength t.opnd.func t.opnd.value1 = 8) (hc : c.cfg = t.cfg)
    (hr : r.length = 8) :
    ∃ h, driven t (sessionExchange c n r ++ ms) = driven (afterExchange (endExchange (exchanged t r 8 h))) ms := by
  have hwindow : (openWindow (requestTaken t)).rx.exp = 8 := congrArg (BitVec.ofNat 16) hexp
  refine ⟨{ txPos := t.tx.bytes.length, rxAcc := r, windowLeft := responseTimeout t, gapLeft := 0 }, ?_⟩
  calc driven t (sessionExchange c n r ++ ms)
      = driven (openWindow (requestTaken t)) (.gives r :: .core :: .elapse t.cfg.tIfgMs.toNat :: .core :: ms) := by
        rw [← hn, ← hc, ← afterTransmit_of_addressed (s := requestTaken t) ha]
        exact driven_transmit _ hp h0
    _ = driven (closeWindow r 8 (windowFilled r (openWindow (requestTaken t))))
          (.elapse t.cfg.tIfgMs.toNat :: .core :: ms) := by
        rw [← hwindow]
        exact driven_fullWindow _ rfl rfl (by rw [hwindow]; exact hr)
    _ = driven (afterExchange (endExchange (exchanged t r 8 _))) ms := by
        rw [closeWindow, store_received]
        exact driven_gap ms rfl

/-- The exchange of a broadcast request, which has no answer (R204). -/
theorem driven_broadcastExchange (ha : t.opnd.devAddr = 0) :
    ∃ h, driven t (broadcastMoves t) = driven (afterExchange (endExchange (exchanged t [] 0 h))) [] := by
  refine ⟨{ t.hidden with txPos := t.tx.bytes.length, gapLeft := 0 }, ?_⟩
  rw [broadcastMoves, driven_transmit _ hp h0, afterTransmit_of_broadcast (by exact ha), closeWindow, store_received]
  exact driven_gap [] rfl

end

/-! ### The Core between the exchanges -/

/-- The state in which the exchange of the next block just began. -/
def blockSent (image : List Byte) (s : State) : State :=
  started (blockFetched image s) (blockOperands (blockFetched image s))
    (blockBody s.cfg (paddedBlock image s.session.blkIdx.toNat))

/-- The state after the change to Commit. -/
def toCommit (s : State) : State := { s with session := { s.session with fwState := .committing } }

section
variable {s : State} (ms : List Move) (hb : s.busy = true) (hp : s.phase = .idle)
include hb hp

theorem driven_core_of_block {image : List Byte} (hf : s.session.fwState = .transferring) (hmem : s.mem = Memory.load image)
    (hsize : s.session.imgSize.toNat = image.length) (hlt : s.session.blkIdx.toNat < s.session.blkCnt.toNat) :
    driven s (.core :: ms) = driven (blockSent image s) ms :=
  driven_move (step_of_block (s := withMoves s (.core :: ms)) hb hp rfl hf hmem hsize hlt)

theorem driven_core_of_lastBlock (hf : s.session.fwState = .transferring) (hall : s.session.blkIdx = s.session.blkCnt) :
    driven s (.core :: ms) = driven (toCommit s) ms :=
  driven_move (step_of_lastBlock (s := withMoves s (.core :: ms)) hb hp rfl hf hall)

theorem driven_core_of_committing (hf : s.session.fwState = .committing) :
    driven s (.core :: ms) =
      driven (started s (magicOperands s s.cfg.regUpdRun) (magicBody s.cfg s.cfg.regUpdRun)) ms :=
  driven_move (step_of_committing (s := withMoves s (.core :: ms)) hb hp rfl hf)

end

/-! ### The parts of a session -/

/-- A session with the settings `c` is in `Transferring`, `k` blocks of the image are acknowledged, the next exchange has not
begun, and the bytes on the wire are `wire`. -/
structure Transferred (c : Settings) (image initAck : List Byte) (k : Nat) (wire : List Byte) (u : State) : Prop where
  busy : u.busy = true
  phase : u.phase = .idle
  fwState : u.session.fwState = .transferring
  cfg : u.cfg = c
  mem : u.mem = Memory.load image
  imgSize : u.session.imgSize.toNat = image.length
  agrees : u.session.Agrees u.mem
  blkIdx : u.session.blkIdx.toNat = k
  initBytes : u.session.initBytes = initAck
  wire : u.env.wire = wire

/-- A session with the settings `c` has ended in `Done`: its answers were `initAck` and `commitAck`, every byte of the image is
counted, and the bytes on the wire are `wire`. -/
structure SessionDone (c : Settings) (image initAck commitAck wire : List Byte) (u : State) : Prop where
  wire : u.env.wire = wire
  busy : u.busy = false
  phase : u.phase = .idle
  fwState : u.session.fwState = .done
  result : u.result = {
    status := (classify c.fwDevAddr 8 commitAck).1
    errInfo := (classify c.fwDevAddr 8 commitAck).2
    ret := .fwState .done }
  blkIdx : u.session.blkIdx = u.session.blkCnt
  blkCnt : u.session.blkCnt.toNat = blockCount image.length
  bytesDone : u.session.bytesDone.toNat = image.length
  initBytes : u.session.initBytes = initAck
  answer : u.rx.bytes = commitAck
  mem : u.mem = Memory.load image

theorem Transferred.blkCnt {c : Settings} {image initAck wire : List Byte} {k : Nat} {u : State}
    (h : Transferred c image initAck k wire u) : u.session.blkCnt.toNat = blockCount image.length := by
  rw [h.agrees.blkCnt, h.imgSize]

theorem recorded_initBytes {s : State} {r : List Byte} (hr : s.rx.bytes = r) (h : r.length = 8) :
    (recorded s).initBytes = r := by
  have hlen : (BitVec.ofNat 4 r.length).toNat = r.length := by rw [h]; rfl
  rw [Session.initBytes, recorded, hr]
  dsimp only
  rw [hlen]
  exact take_writeFront _ r

/-- The blocks of an image hold all its bytes (R246). -/
theorem min_blockCount (n : Nat) : min (128 * blockCount n) n = n := by
  simp only [blockCount, Config.blockSize]
  omega

/-- The recorded response and the change to Transfer leave the counters of a session in agreement (R244). -/
theorem agrees_of_initialized {s : State} (h : s.session.Agrees s.mem) (hf : s.session.fwState = .initializing) :
    ({ recorded s with fwState := .transferring } : Session).Agrees s.mem :=
  Session.Agrees.setFwState (f := recorded s) { h with } nofun nofun (fun _ => by exact congrArg inSession hf)

/-- The exchange of Initialize, acknowledged (R244). -/
theorem transferred_of_initialize {s c : State} {image initAck : List Byte} (ha : s.cfg.fwDevAddr ≠ 0)
    (hsize : image.length ≤ Config.imgMax.toNat) (hr : GoodAck initAck) (hc : c.cfg = s.cfg) (ms : List Move) :
    ∃ u, driven (sessionStarted image s) (sessionExchange c 8 initAck ++ ms) = driven u ms ∧
      Transferred s.cfg image initAck 0 (s.env.wire ++ withCrc (magicBody s.cfg s.cfg.regUpdInit)) u := by
  have hmax : image.length < 2 ^ 32 := hsize.trans_lt Config.imgMax.isLt
  have hfits : (magicBody s.cfg s.cfg.regUpdInit).length + 2 < 65536 := by rw [length_magicBody]; decide
  obtain ⟨h, hrun⟩ := driven_sessionExchange (t := sessionStarted image s) rfl rfl ms
    (frameIn_len _ _ hfits) ha rfl hc hr.1
  have hbytes := exchanged_bytes (sessionStarted image s) (r := initAck) (by rw [hr.1]; decide) 8 h
  rw [afterExchange_of_initializing rfl, afterInitialize_of_accepted (fun _ => by exact exchanged_goodAck _ hr 8 h)] at hrun
  exact ⟨_, hrun, {
    busy := rfl
    phase := rfl
    fwState := rfl
    cfg := rfl
    mem := rfl
    imgSize := Nat.mod_eq_of_lt hmax
    agrees := agrees_of_initialized (.startSession hmax) rfl
    blkIdx := rfl
    initBytes := recorded_initBytes hbytes hr.1
    wire := congrArg (s.env.wire ++ ·) (frameIn_bytes _ _ hfits) }⟩

section
variable {c : Settings} {image initAck wire : List Byte} {u s : State}

/-- The exchange of a block, acknowledged (R247, R249, R251). -/
theorem Transferred.block {k : Nat} (h : Transferred c image initAck k wire u) (hk : k < blockCount image.length)
    (ha : c.fwDevAddr ≠ 0) {r : List Byte} (hr : GoodAck r) (hs : s.cfg = c) (ms : List Move) :
    ∃ u', driven u (.core :: sessionExchange s 137 r ++ ms) = driven u' ms ∧
      Transferred c image initAck (k + 1) (wire ++ withCrc (blockBody c (paddedBlock image k))) u' := by
  have hcnt := h.blkCnt
  obtain ⟨hb, hp, hf, rfl, hmem, hsize, hagr, rfl, hinit, rfl⟩ := h
  have hlt : u.session.blkIdx.toNat < u.session.blkCnt.toNat := hk.trans_eq hcnt.symm
  have hfits : (blockBody u.cfg (paddedBlock image u.session.blkIdx.toNat)).length = 135 :=
    length_blockBody _ (length_paddedBlock _ _)
  obtain ⟨h, hrun⟩ := driven_sessionExchange (t := blockSent image u) rfl rfl ms
    ((frameIn_len _ _ (by rw [hfits]; decide)).trans (congrArg (· + 2) hfits))
    ((blockOperands_devAddr (blockFetched image u)).trans_ne ha) (expectedLength_blockOperands (blockFetched image u)) hs hr.1
  rw [afterExchange_of_transferring (by exact hf),
    afterBlock_of_accepted (by exact (exchanged_goodAck _ hr 8 h).blockAck _)] at hrun
  exact ⟨_, (driven_core_of_block _ hb hp hf hmem hsize hlt).trans hrun, {
    busy := rfl
    phase := rfl
    fwState := hf
    cfg := rfl
    mem := hmem
    imgSize := hsize
    agrees := Session.Agrees.countBlock (f := (blockFetched image u).session) { hagr with } hf hlt
    blkIdx := counted_blkIdx (s := u) hlt
    initBytes := hinit
    wire := congrArg (u.env.wire ++ ·) (frameIn_bytes _ _ (by rw [hfits]; decide)) }⟩

/-- The exchanges of the first `k` blocks, by induction on `k`. -/
theorem Transferred.blocks (h : Transferred c image initAck 0 wire u) (ha : c.fwDevAddr ≠ 0) {acks : Nat → List Byte}
    (hacks : ∀ k, GoodAck (acks k)) (hs : s.cfg = c) {k : Nat} (hk : k ≤ blockCount image.length) (ms : List Move) :
    ∃ u', driven u ((List.range k).flatMap (fun k => .core :: sessionExchange s 137 (acks k)) ++ ms) = driven u' ms ∧
      Transferred c image initAck k
        (wire ++ (List.range k).flatMap (fun k => withCrc (blockBody c (paddedBlock image k)))) u' := by
  induction k generalizing ms with
  | zero => exact ⟨u, rfl, by simpa using h⟩
  | succ k ih =>
    obtain ⟨v, hrun, hv⟩ := ih (by omega) (.core :: sessionExchange s 137 (acks k) ++ ms)
    obtain ⟨w, hrun', hw⟩ := hv.block hk ha (hacks k) hs ms
    refine ⟨w, ?_, ?_⟩
    · rw [List.range_succ, List.flatMap_append, List.flatMap_singleton, List.append_assoc, hrun, hrun']
    · rw [List.range_succ, List.flatMap_append, List.flatMap_singleton, ← List.append_assoc]
      exact hw

/-- The state in which the exchange of Commit just began, after the last block. -/
def commitSent (s : State) : State :=
  started (toCommit s) (magicOperands s s.cfg.regUpdRun) (magicBody s.cfg s.cfg.regUpdRun)

/-- The change to Commit and its exchange, acknowledged (R254). -/
theorem Transferred.commit (h : Transferred c image initAck (blockCount image.length) wire u) (ha : c.fwDevAddr ≠ 0)
    {r : List Byte} (hr : GoodAck r) (hs : s.cfg = c) :
    ∃ u', driven u ([.core, .core] ++ sessionExchange s 8 r) = .next u' ∧
      SessionDone c image initAck r (wire ++ withCrc (magicBody c c.regUpdRun)) u' := by
  have hcnt := h.blkCnt
  obtain ⟨hb, hp, hf, rfl, hmem, hsize, hagr, hidx, hinit, rfl⟩ := h
  have hall : u.session.blkIdx = u.session.blkCnt := BitVec.eq_of_toNat_eq (hidx.trans hcnt.symm)
  have hfits : (magicBody u.cfg u.cfg.regUpdRun).length + 2 < 65536 := by rw [length_magicBody]; decide
  have hbegin : driven u ([.core, .core] ++ sessionExchange s 8 r) = driven (commitSent u) (sessionExchange s 8 r) :=
    (driven_core_of_lastBlock _ hb hp hf hall).trans (driven_core_of_committing (s := toCommit u) _ hb hp rfl)
  obtain ⟨h, hrun⟩ := driven_sessionExchange (t := commitSent u) rfl rfl [] (frameIn_len _ _ hfits) ha rfl hs hr.1
  have hbytes := exchanged_bytes (commitSent u) (r := r) (by rw [hr.1]; decide) 8 h
  rw [afterExchange_of_committing rfl, afterCommit_of_accepted (fun _ => by exact exchanged_goodAck _ hr 8 h), List.append_nil,
    driven_nil] at hrun
  refine ⟨_, hbegin.trans hrun, {
    wire := congrArg (u.env.wire ++ ·) (frameIn_bytes _ _ hfits)
    busy := rfl
    phase := rfl
    fwState := rfl
    result := congrArg
      (fun b => (⟨(classify u.cfg.fwDevAddr 8 b).1, (classify u.cfg.fwDevAddr 8 b).2, .fwState .done⟩ : Result)) hbytes
    blkIdx := hall
    blkCnt := hcnt
    bytesDone := by rw [← min_blockCount image.length, ← hidx, ← hsize]; exact hagr.bytesDone
    initBytes := hinit
    answer := hbytes
    mem := hmem }⟩

end

end Sys2Proof.Machine

open Sys2Proof Sys2Proof.Machine

/-- Settles O59: the empty answer to a broadcast is no acknowledgement. -/
theorem broadcastSessionFails : Obligations.BroadcastSessionFails := by
  intro s image hb hf ha hv hsize
  have hk := fwCheck_of_legal (image := image) hf (by rw [ha]; decide) hsize
  obtain ⟨h, hrun⟩ := driven_broadcastExchange (t := sessionStarted image s) rfl rfl ha
  rw [afterExchange_of_initializing rfl, afterInitialize_of_failed (by exact hv) (by exact exchanged_not_goodAck _ 0 h),
    driven_nil] at hrun
  refine ⟨_, _, exec_fwStart_of_accepted hb hk, hrun, ?_, rfl, rfl, ?_, rfl⟩
  · exact congrArg (s.env.wire ++ ·) (frameIn_bytes _ _ (by rw [length_magicBody]; decide))
  · exact congrArg (fun c : Kind × Byte => (⟨c.1, c.2, .fwState .failed⟩ : Result)) (classify_of_broadcast ha _ _)

/-- Settles O58: Initialize, the blocks by induction on their number, and Commit. -/
theorem sessionSendsEveryFrame : Obligations.SessionSendsEveryFrame := by
  intro s image initAck commitAck acks hb hf ha haddr hsize hinit hcommit hacks
  have hk := fwCheck_of_legal (image := image) hf haddr hsize
  obtain ⟨u, hinitialize, hu⟩ := transferred_of_initialize (c := sessionStarted image s) ha hsize hinit rfl _
  obtain ⟨v, hblocks, hv⟩ := hu.blocks (s := sessionStarted image s) ha hacks rfl le_rfl _
  obtain ⟨w, hend, hw⟩ := hv.commit (s := sessionStarted image s) ha hcommit rfl
  refine ⟨_, w, exec_fwStart_of_accepted hb hk, ?_, ?_, hw.busy, hw.phase, hw.fwState, hw.result, hw.blkIdx, hw.blkCnt,
    hw.bytesDone, hw.initBytes, hw.answer, hw.mem⟩
  · rw [sessionMoves, List.append_assoc, List.append_assoc, hinitialize]
    exact hblocks.trans hend
  · rw [hw.wire, sessionFrames, List.append_assoc, List.append_assoc, List.append_assoc]
    rfl

end

section
/-!
SUPPORT. Host access (45_host_access.md R260 to R263) and the reset input (70_reset_and_hazards.md R320): what each command
reads or writes, stated once through the view it uses (`readRegister`, `readBuffer`, `writeSetting`), and what each view
holds.
-/
namespace Sys2Proof.Machine

/-! ### Registers by number (R52, R260) -/

theorem bitCode_eq_ofNat (b : Bool) : bitCode b = BitVec.ofNat 32 b.toNat := by cases b <;> rfl

/-- Every entry of the table is what `REG_READ` sees under its number. A machine word is zero-extended; the three registers
with named values go value by value. -/
theorem readRegister_of_mem_registerTable {s : State} {number : Byte} {v : Nat} (h : (number, v) ∈ registerTable s) :
    readRegister s number = some (BitVec.ofNat 32 v) := by
  suffices hall : ∀ e ∈ registerTable s, readRegister s e.1 = some (BitVec.ofNat 32 e.2) from hall _ h
  simp only [registerTable, BitVec.ofNat_eq_ofNat, List.mem_cons, List.not_mem_nil, or_false, readRegister,
    bitCode_eq_ofNat, forall_eq_or_imp, BitVec.toNat_ofNat, Nat.reducePow, Nat.zero_mod, BitVec.ofNat_toNat,
    Nat.one_mod, Option.some.injEq, Nat.reduceMod, BitVec.setWidth_eq, forall_eq, and_self, and_true, true_and]
  refine ⟨?phase, ?fwState, ?status⟩
  case phase => cases s.phase <;> rfl
  case fwState => cases s.session.fwState <;> rfl
  case status => cases s.result.status <;> rfl

/-- `REG_READ` sees nothing under a number that is not in the table. -/
theorem readRegister_of_not_mem {s : State} {number : Byte} (h : number ∉ (registerTable s).map Prod.fst) :
    readRegister s number = none := by
  unfold readRegister
  split
  case h_32 => rfl
  all_goals
    next hn =>
    rw [byte_eq_ofNat hn] at h
    exact absurd (by simp [registerTable]) h

theorem exec_regRead_of_some {s : State} {number : Byte} {v : U32} (h : readRegister s number = some v) :
    exec (.regRead number) s = .next { s with result := { s.result with ret := .reg v } } := by
  rw [exec, execRegRead, h]
  rfl

theorem exec_regRead_of_none {s : State} {number : Byte} (h : readRegister s number = none) :
    exec (.regRead number) s = .next { s with result := { s.result with ret := .refused } } := by
  rw [exec, execRegRead, h]
  rfl

/-! ### Buffers by number (R261) -/

/-- An element of a buffer's current contents is the buffer's own below the current length, and there is none beyond. -/
theorem getElem?_take_of_le {α : Type} {buf : List α} {len : Nat} (h : len ≤ buf.length) (n : Nat) (d : α) :
    (buf.take len)[n]? = if n < len then some (buf.getD n d) else none := by
  rw [List.getElem?_take]
  refine if_ctx_congr Iff.rfl (fun hn => ?_) fun _ => rfl
  rw [List.getD_eq_getElem _ _ (hn.trans_le h), List.getElem?_eq_getElem (hn.trans_le h)]

theorem readBuffer_of_unlisted {id : Byte} (h : 5 < id.toNat) (s : State) (n : Nat) : readBuffer s id n = none := by
  unfold readBuffer
  split
  case h_7 => rfl
  all_goals omega

theorem exec_bufRead {s : State} {id : Byte} {offset : U16} {inside : Prop} [Decidable inside] {b : Byte}
    (h : readBuffer s id offset.toNat = if inside then some b else none) :
    exec (.bufRead id offset) s =
      .next { s with result := { s.result with ret := if inside then .byte b else .refused } } := by
  rw [exec, execBufRead, h]
  by_cases hi : inside
  · simp only [if_pos hi]; rfl
  · simp only [if_neg hi]; rfl

theorem exec_bufRead_of_none {s : State} {id : Byte} {offset : U16} (h : readBuffer s id offset.toNat = none) :
    exec (.bufRead id offset) s = .next { s with result := { s.result with ret := .refused } } := by
  rw [exec, execBufRead, h]
  rfl

/-! ### Settings by number (R262) -/

theorem writeSetting_of_unlisted {number : Byte} (h : number.toNat < 0x20 ∨ 0x27 < number.toNat) (c : Settings) (v : U16) :
    writeSetting c number v = none := by
  unfold writeSetting
  split
  case h_9 => rfl
  all_goals omega

theorem exec_cfgWrite_of_some {s : State} {number : Byte} {v : U16} {c : Settings} (hb : s.busy = false)
    (h : writeSetting s.cfg number v = some c) :
    exec (.cfgWrite number v) s = .next { s with cfg := c, result := { status := .ok, errInfo := 0, ret := .none } } := by
  rw [exec, execCfgWrite, whenIdle_idle hb, h]
  simp only [endOk, endCommand, hb]

theorem refuses_cfgWrite_of_none {s : State} {number : Byte} {v : U16} (hb : s.busy = false)
    (h : writeSetting s.cfg number v = none) : Refuses s (.cfgWrite number v) s.opnd 8 := by
  rw [Refuses, exec, execCfgWrite, whenIdle_idle hb, h, ← raise_of_idle hb]

/-! ### Reset (R263, R320) -/

theorem step_of_resetInput {s : State} {rest : List Move} (h : s.env.moves = .resetInput :: rest) :
    step s = .next (resetBlock (withMoves s rest)) := by
  simp only [step, nextMove, h]
  rfl

/-- The end of `SOFT_RESET` writes what the reset has already written. -/
theorem endOk_resetBlock (s : State) : endOk .none (resetBlock s) = resetBlock s := rfl

theorem exec_softReset {s : State} (hb : s.busy = false) : exec .softReset s = .next (resetBlock s) := by
  rw [exec, execSoftReset, whenIdle_idle hb, endOk_resetBlock]

end Sys2Proof.Machine

open Sys2Proof Sys2Proof.Machine

/-- Settles O46: each buffer's current length is within the buffer, so an element below it is one of the buffer's. -/
theorem bufReadTable : Obligations.BufReadTable := by
  intro s id offset hs
  refine ⟨rfl, ?_, ?_, ?_, ?_, ?_, ?_, fun hid => exec_bufRead_of_none (readBuffer_of_unlisted hid s _)⟩ <;> rintro rfl
  · exact exec_bufRead (getElem?_take_of_le (hs.wLen.trans_eq hs.wData.symm) _ _)
  · refine exec_bufRead ((congrArg (Option.map encodeBool)
      (getElem?_take_of_le (hs.wbLen.trans_eq hs.wBits.symm) offset.toNat false)).trans ?_)
    rw [apply_ite (Option.map encodeBool)]
    rfl
  · exact exec_bufRead (getElem?_take_of_le (hs.txLen.trans_eq hs.txBuf.symm) _ _)
  · exact exec_bufRead (getElem?_take_of_le (hs.rxLen.trans_eq hs.rxBuf.symm) _ _)
  · exact exec_bufRead (getElem?_take_of_le (hs.initRespLen.trans_eq hs.initResp.symm) _ _)
  · exact exec_bufRead (getElem?_take_of_le hs.blkBuf.ge _ _)

/-- Settles O5: both are `resetBlock`, of the state without the move and of the state itself. -/
theorem resetInputAndSoftReset : Obligations.ResetInputAndSoftReset :=
  fun _ => ⟨fun _ => step_of_resetInput, exec_softReset⟩

/-- Settles O45: `REG_READ`'s view of the registers is the table. -/
theorem regReadTable : Obligations.RegReadTable := fun _ _ =>
  ⟨rfl, fun _ hv => exec_regRead_of_some (readRegister_of_mem_registerTable hv),
    fun hn => exec_regRead_of_none (readRegister_of_not_mem hn)⟩

/-- Settles O47, by the number written; the three settings with illegal values check theirs. -/
theorem cfgWriteCommand : Obligations.CfgWriteCommand := by
  intro s number v hb
  refine ⟨rfl, ?gap, ?_, ?_, ?_, ?_, ?_, ?address, ?acksOff, ?acksOn, fun hillegal => refuses_cfgWrite_of_none hb ?illegal⟩
  case gap | address => rintro rfl hv; exact exec_cfgWrite_of_some hb (if_pos hv)
  case acksOff | acksOn => rintro rfl rfl; exact exec_cfgWrite_of_some hb rfl
  case illegal =>
    rcases hillegal with ⟨rfl, rfl⟩ | ⟨rfl, hv⟩ | ⟨rfl, hv⟩ | hunlisted
    · rfl
    · exact if_neg (by omega)
    · exact if_neg (by omega)
    · exact writeSetting_of_unlisted hunlisted s.cfg v
  all_goals rintro rfl; exact exec_cfgWrite_of_some hb rfl

end

section
/-!
SUPPORT. What 60_exceptions.md says of an exchange from outside: the classification of what came (R283), one equation for each
of its branches; the Core that waits for the Transport (R298); and the Core that is idle (R303).
-/
namespace Sys2Proof.Machine

/-! ### The classification (R282 to R286, R288) -/

theorem excBit_iff (r : List Byte) : excBit r = true ↔ 2 ≤ r.length ∧ (r.getD 1 0).getLsbD 7 = true := by
  rw [excBit, Bool.and_eq_true, decide_eq_true_iff]

theorem length_ne_zero_of_excBit {r : List Byte} (hx : excBit r = true) : r.length ≠ 0 :=
  Nat.ne_zero_of_lt ((excBit_iff r).mp hx).1

section
variable {a : Byte} {n : Nat} {r : List Byte}

theorem classify_of_empty (ha : a ≠ 0) (hr : r.length = 0) : classify a n r = (.timeout, 0) := by
  rw [classify, if_neg ha, if_pos hr]

theorem classify_of_exception (ha : a ≠ 0) (hx : excBit r = true) :
    classify a n r = if r.length < 5 then (.shortFrame, 0)
      else if !crcOk r then (.crcMismatch, 0) else (.exceptionResponse, r.getD 2 0) := by
  rw [classify, if_neg ha, if_neg (length_ne_zero_of_excBit hx), if_pos hx]

theorem classify_of_normal (ha : a ≠ 0) (hr : r.length ≠ 0) (hx : ¬ excBit r = true) :
    classify a n r = if r.length < n then (.shortFrame, 0) else if !crcOk r then (.crcMismatch, 0) else (.ok, 0) := by
  rw [classify, if_neg ha, if_neg hr, if_neg hx]

end

/-! ### Waiting for the Transport (R298) -/

theorem coreMove_of_transmitting {s : State} (hp : s.phase = .tx) (h : s.hidden.txPos < s.tx.bytes.length) :
    coreMove s = .next s := by
  simp only [coreMove, hp, if_neg (Nat.not_le.mpr h)]

/-- The countdowns stand while a request is being sent (R297). -/
theorem timeElapses_of_tx {s : State} (hp : s.phase = .tx) (ms : Nat) : timeElapses ms s = s := by
  simp only [timeElapses, hp]

/-- The request `f` is being sent, and the moves to come do not take the rest of it. -/
structure TransmitPending (f : TxFrame) (s : State) : Prop where
  busy : s.busy = true
  phase : s.phase = .tx
  tx : s.tx = f
  noReset : .resetInput ∉ s.env.moves
  pending : s.hidden.txPos + takenAtMost s.env.moves < f.bytes.length

theorem TransmitPending.step {f : TxFrame} {s t : State} {m : Move} {rest : List Move} (hm : s.env.moves = m :: rest)
    (h : TransmitPending f s) (he : step s = .next t) : t.env.moves = rest ∧ TransmitPending f t := by
  obtain ⟨hb, hp, rfl, hreset, hpending⟩ := h
  rw [hm] at hreset hpending
  obtain ⟨hne, hrest⟩ : .resetInput ≠ m ∧ .resetInput ∉ rest := not_or.mp (mt List.mem_cons.mpr hreset)
  rcases step_of_busy hb hm hne.symm he with ⟨p, r, rfl, rfl⟩ | ⟨rfl, hc⟩ | ⟨k, rfl, rfl⟩ | ⟨bs, rfl, rfl⟩ | ⟨ms, rfl, rfl⟩
  · exact ⟨rfl, hb, hp, rfl, hrest, hpending⟩
  · have hleft : s.hidden.txPos < s.tx.bytes.length := (Nat.le_add_right ..).trans_lt hpending
    rw [coreMove_of_transmitting (s := withMoves s rest) hp hleft] at hc
    cases hc
    exact ⟨rfl, hb, hp, rfl, hrest, hpending⟩
  · rw [transportTakes_of_tx (s := withMoves s rest) hp]
    refine ⟨rfl, hb, hp, rfl, hrest, ?_⟩
    have htaken : ((s.tx.bytes.drop s.hidden.txPos).take k).length ≤ k := List.length_take_le ..
    calc s.hidden.txPos + ((s.tx.bytes.drop s.hidden.txPos).take k).length + takenAtMost rest
        ≤ s.hidden.txPos + (k + takenAtMost rest) := by omega
      _ < s.tx.bytes.length := hpending
  · rw [transportGives_of_ne_rxWait (s := withMoves s rest) hp nofun]
    exact ⟨rfl, hb, hp, rfl, hrest, hpending⟩
  · rw [timeElapses_of_tx (s := withMoves s rest) hp]
    exact ⟨rfl, hb, hp, rfl, hrest, hpending⟩

/-! ### The idle Core (R303) -/

theorem coreMove_of_idle {s : State} (hb : s.busy = false) (hp : s.phase = .idle) : coreMove s = .next s := by
  simp [coreMove, hp, hb]

theorem timeElapses_of_idle {s : State} (hp : s.phase = .idle) (ms : Nat) : timeElapses ms s = s := by
  simp only [timeElapses, hp]

end Sys2Proof.Machine

open Sys2Proof Sys2Proof.Machine

/-- Settles O39: `TransmitPending` is kept by every move of the schedule. -/
theorem transmitWaitsForTransport : Obligations.TransmitWaitsForTransport := by
  intro s t ms hinv hp hreset hpending h
  have hb : s.busy = true := hinv.flow.busy_of_phase (by rw [hp]; nofun)
  have h0 : TransmitPending s.tx (withMoves s ms) := ⟨hb, hp, rfl, hreset, hpending⟩
  obtain ⟨-, hwaits⟩ := driven_invariant (fun _ _ _ _ => TransmitPending.step) h0 h
  exact ⟨hwaits.phase, hwaits.busy, hwaits.tx⟩

/-- Settles O36, by the branches of R283: in each the kind is known, and the branch's conditions single it out. -/
theorem classificationPartitionsAnswers : Obligations.ClassificationPartitionsAnswers := by
  intro a n r
  dsimp only
  rw [← excBit_iff]
  by_cases ha : a = 0
  · rw [classify_of_broadcast ha]
    simp [ha]
  simp only [ne_eq, ha, not_false_eq_true, true_and]
  by_cases hr : r.length = 0
  · have hx : ¬ excBit r = true := fun hx => length_ne_zero_of_excBit hx hr
    rw [classify_of_empty ha hr]
    simp [hr, hx]
  have hr1 : 1 ≤ r.length := Nat.pos_of_ne_zero hr
  by_cases hx : excBit r = true
  · rw [classify_of_exception ha hx]
    by_cases h5 : r.length < 5
    · simp [h5, hr, hr1, hx, Nat.not_le.mpr h5]
    · cases hc : crcOk r <;> simp [h5, hr, hx, Nat.not_lt.mp h5]
  · rw [classify_of_normal ha hr hx]
    by_cases hn : r.length < n
    · simp [hn, hr, hr1, hx, Nat.not_le.mpr hn]
    · cases hc : crcOk r <;> simp [hn, hr, hr1, hx, Nat.not_lt.mp hn]

/-- Settles O44, by whose move it is: none of the three agents finds an exchange to carry on. -/
theorem idleCoreDoesNothing : Obligations.IdleCoreDoesNothing := by
  intro s m rest hb hp hm hhost hreset
  cases m with
  | host p => exact absurd rfl (hhost p)
  | resetInput => exact absurd rfl hreset
  | core => rw [step_of_core hm, coreMove_of_idle (s := withMoves s rest) hb hp]
  | takes k => rw [step_of_takes hm, transportTakes_of_ne_tx (s := withMoves s rest) hp nofun]
  | gives bs => rw [step_of_gives hm, transportGives_of_ne_rxWait (s := withMoves s rest) hp nofun]
  | elapse ms => rw [step_of_elapse hm, timeElapses_of_idle (s := withMoves s rest) hp]

end

section
/-!
SUPPORT. The reset values (70_reset_and_hazards.md R321): what `BUF_READ` sees of the buffers right after reset.
-/
namespace Sys2Proof.Machine

/-- Right after reset the five buffers with a length register are empty (R321), so `BUF_READ` sees no element of theirs. -/
theorem readBuffer_reset {id : Byte} (h : id.toNat < 5) (n : Nat) : readBuffer State.reset id n = none := by
  unfold readBuffer
  split
  case h_6 => omega -- `BLKBUF`, the one buffer without a length
  all_goals rfl

end Sys2Proof.Machine

open Sys2Proof Sys2Proof.Machine

/-- Settles O1, group by group: the registers, flags and contents are those `State.reset` writes out, and the buffers of
length 0 have no readable element. -/
theorem resetRegisterValues : Obligations.ResetRegisterValues := by
  refine ⟨?sequencing, ?crc, ?operands, ?buffers, ?flags, ?settings, ?session,
    fun _ _ hid => exec_bufRead_of_none (readBuffer_reset hid _)⟩
  case crc => rfl
  case sequencing => exact ⟨rfl, rfl, rfl⟩
  case session => exact ⟨rfl, rfl, rfl, rfl⟩
  case flags => exact ⟨rfl, rfl, rfl, rfl, rfl⟩
  case operands | buffers | settings => exact ⟨rfl, rfl, rfl, rfl, rfl, rfl, rfl, rfl⟩

end
